-- ==== Sys2Proof/Word.lean ====
section
/-! DEFINITION. The word types of the tick core (00_scope.md R9 and R10): every value is an unsigned
integer, and every counter, timestamp and duration is `TICK_W` = 32 bits wide. -/

namespace Sys2Proof

/-- A 32-bit unsigned register, operand or response (`TICK_W` = 32, 00_scope.md R9). -/
abbrev Word := BitVec 32

/-- A 40-bit command word `CMD[39:0]` (30_encoding.md R80). -/
abbrev Cmd := BitVec 40

/-- An 8-bit opcode `OP` = `CMD[39:32]` (30_encoding.md R80). -/
abbrev Opcode := BitVec 8

/-- A 7-bit duty or carrier value (10_state.md R35, R36). -/
abbrev Duty := BitVec 7

end Sys2Proof
end

