-- ==== Sys2Proof/Syntax.lean ====
section
/-! DEFINITION. The commands, one constructor per row of spec/opcode_table.json (30_encoding.md R84).
A constructor holds the operands its form reads (R82): the bits a form ignores are dropped by the
decoder, and a channel index is kept as `ARG[15:0]`, to be reduced modulo `N_CH` when the command
runs (DESIGN CHOICE, log 2). A reserved command keeps its opcode. -/

namespace Sys2Proof

/-- A host command (30_encoding.md R80, R84). -/
inductive Instr where
  | nop
  | getTick
  | setMode (v : Word)
  | getMode
  | startWave
  | stopWave
  | setWaveSpeed (v : Word)
  | setWavePeriod (v : Word)
  | getWaveActive
  | startSequence (v : Word)
  | stopSequence
  | getSeqActive
  | getButtonState
  | getClickCount
  | resetClickCount
  | ledWrite (ch : BitVec 16) (val : Bool)
  | getOutputs
  | getPhase
  | getDuty (ch : BitVec 16)
  /-- Reserved opcode 0x13 (R85). -/
  | reserved13
  /-- Reserved opcodes 0x14 to 0x17 (R85). -/
  | reserved14 (op : Opcode)
  /-- Reserved opcodes 0x18 to 0x1F (R85). -/
  | reserved18 (op : Opcode)
  /-- Reserved opcodes 0x20 to 0x3F (R85). -/
  | reserved20 (op : Opcode)
  /-- Reserved opcodes 0x40 to 0x7F (R85). -/
  | reserved40 (op : Opcode)
  /-- Reserved opcodes 0x80 to 0xFF (R85). -/
  | reserved80 (op : Opcode)
  deriving DecidableEq, Repr

end Sys2Proof
end

