-- ==== Sys2Proof/WellFormed.lean ====
section
/-! DEFINITION. Which syntax a command word can stand for. The operands of the nineteen defined
commands are legal at every value of their type (30_encoding.md R82, R86), so the only checks are on
the opcode a reserved command keeps: it lies in its row of spec/opcode_table.json (R84, R85). -/

namespace Sys2Proof

/-- `op` lies in the opcode-table row whose `OP` mask and `OP` value are given (30_encoding.md R84). -/
def Opcode.inRow (op mask value : Opcode) : Bool := op &&& mask == value

/-- The well-formed commands. -/
def Instr.wellFormed : Instr → Bool
  | .nop => true
  | .getTick => true
  | .setMode _ => true
  | .getMode => true
  | .startWave => true
  | .stopWave => true
  | .setWaveSpeed _ => true
  | .setWavePeriod _ => true
  | .getWaveActive => true
  | .startSequence _ => true
  | .stopSequence => true
  | .getSeqActive => true
  | .getButtonState => true
  | .getClickCount => true
  | .resetClickCount => true
  | .ledWrite _ _ => true
  | .getOutputs => true
  | .getPhase => true
  | .getDuty _ => true
  | .reserved13 => true
  | .reserved14 op => op.inRow 0xFC 0x14
  | .reserved18 op => op.inRow 0xF8 0x18
  | .reserved20 op => op.inRow 0xE0 0x20
  | .reserved40 op => op.inRow 0xC0 0x40
  | .reserved80 op => op.inRow 0x80 0x80

end Sys2Proof
end

