-- ==== Sys2Proof/Decode.lean ====
section
/-! DEFINITION. The command decoder and encoder (30_encoding.md R80 to R88). Every 40-bit word is a
command, so decoding a command word is total and rejects nothing (R84, R85); a word that is not 40
bits is no command, and `decodeTableWord` rejects it (R80). -/

namespace Sys2Proof

/-- `OP` = `CMD[39:32]` (30_encoding.md R80). -/
def cmdOp (w : Cmd) : Opcode := w.extractLsb' 32 8

/-- `ARG` = `CMD[31:0]` (30_encoding.md R80); the operand of form `U32` (R82). -/
def cmdArg (w : Cmd) : Word := w.extractLsb' 0 32

/-- `ARG[15:0]`, the channel field of the forms `CH` and `CHV` (30_encoding.md R82). -/
def cmdChannel (w : Cmd) : BitVec 16 := w.extractLsb' 0 16

/-- `ARG[16]`, the value field of the form `CHV` (30_encoding.md R82). -/
def cmdValue (w : Cmd) : Bool := w.getLsbD 16

/-- The command a reserved opcode stands for, by the six reserved rows of spec/opcode_table.json
(30_encoding.md R84, R85). -/
def decodeReserved (op : Opcode) : Instr :=
  if op = 0x13 then .reserved13
  else if op.inRow 0xFC 0x14 then .reserved14 op
  else if op.inRow 0xF8 0x18 then .reserved18 op
  else if op.inRow 0xE0 0x20 then .reserved20 op
  else if op.inRow 0xC0 0x40 then .reserved40 op
  else .reserved80 op

/-- The decoder: `OP` selects the row of the opcode map, whose form reads the operands
(30_encoding.md R82, R84, R88). -/
def decode (w : Cmd) : Instr :=
  if cmdOp w = 0x00 then .nop
  else if cmdOp w = 0x01 then .getTick
  else if cmdOp w = 0x02 then .setMode (cmdArg w)
  else if cmdOp w = 0x03 then .getMode
  else if cmdOp w = 0x04 then .startWave
  else if cmdOp w = 0x05 then .stopWave
  else if cmdOp w = 0x06 then .setWaveSpeed (cmdArg w)
  else if cmdOp w = 0x07 then .setWavePeriod (cmdArg w)
  else if cmdOp w = 0x08 then .getWaveActive
  else if cmdOp w = 0x09 then .startSequence (cmdArg w)
  else if cmdOp w = 0x0A then .stopSequence
  else if cmdOp w = 0x0B then .getSeqActive
  else if cmdOp w = 0x0C then .getButtonState
  else if cmdOp w = 0x0D then .getClickCount
  else if cmdOp w = 0x0E then .resetClickCount
  else if cmdOp w = 0x0F then .ledWrite (cmdChannel w) (cmdValue w)
  else if cmdOp w = 0x10 then .getOutputs
  else if cmdOp w = 0x11 then .getPhase
  else if cmdOp w = 0x12 then .getDuty (cmdChannel w)
  else decodeReserved (cmdOp w)

/-- The word of `nbits` bits whose value is `w`, as a command word with the bits above `nbits` zero. -/
def tableWord (nbits w : Nat) : Cmd := BitVec.ofNat 40 (w % 2 ^ nbits)

/-- The decoder on a word numbered as spec/opcode_table.json numbers it: a command is one 40-bit
parallel word (30_encoding.md R80, 20_memory.md R62). A value of more than `nbits` or more than 40
bits is no command word (log 19). -/
def decodeTableWord (nbits w : Nat) : Option Instr :=
  if nbits ≤ 40 ∧ w < 2 ^ nbits then some (decode (tableWord nbits w)) else none

/-- The word `{OP, ARG}` (30_encoding.md R89). -/
def cmdWord (op : Opcode) (arg : Word) : Cmd := op ++ arg

/-- `ARG` of the form `CH`: `zext_32(ch)` (30_encoding.md R89). -/
def argCh (ch : BitVec 16) : Word := ch.zeroExtend 32

/-- `ARG` of the form `CHV`: `{15'b0, val, ch[15:0]}` (30_encoding.md R89). -/
def argChv (ch : BitVec 16) (val : Bool) : Word := 0#15 ++ (BitVec.ofBool val ++ ch)

/-- The encoder, with `ARG` = 0 in the form `none` (30_encoding.md R84, R89). -/
def encode : Instr → Cmd
  | .nop => cmdWord 0x00 0
  | .getTick => cmdWord 0x01 0
  | .setMode v => cmdWord 0x02 v
  | .getMode => cmdWord 0x03 0
  | .startWave => cmdWord 0x04 0
  | .stopWave => cmdWord 0x05 0
  | .setWaveSpeed v => cmdWord 0x06 v
  | .setWavePeriod v => cmdWord 0x07 v
  | .getWaveActive => cmdWord 0x08 0
  | .startSequence v => cmdWord 0x09 v
  | .stopSequence => cmdWord 0x0A 0
  | .getSeqActive => cmdWord 0x0B 0
  | .getButtonState => cmdWord 0x0C 0
  | .getClickCount => cmdWord 0x0D 0
  | .resetClickCount => cmdWord 0x0E 0
  | .ledWrite ch val => cmdWord 0x0F (argChv ch val)
  | .getOutputs => cmdWord 0x10 0
  | .getPhase => cmdWord 0x11 0
  | .getDuty ch => cmdWord 0x12 (argCh ch)
  | .reserved13 => cmdWord 0x13 0
  | .reserved14 op => cmdWord op 0
  | .reserved18 op => cmdWord op 0
  | .reserved20 op => cmdWord op 0
  | .reserved40 op => cmdWord op 0
  | .reserved80 op => cmdWord op 0

/-- "mask" of the command's row in spec/opcode_table.json (30_encoding.md R84). -/
def Instr.rowMask : Instr → Cmd
  | .nop | .getTick | .setMode _ | .getMode | .startWave | .stopWave | .setWaveSpeed _
  | .setWavePeriod _ | .getWaveActive | .startSequence _ | .stopSequence | .getSeqActive
  | .getButtonState | .getClickCount | .resetClickCount | .ledWrite _ _ | .getOutputs | .getPhase
  | .getDuty _ | .reserved13 => 0xFF00000000
  | .reserved14 _ => 0xFC00000000
  | .reserved18 _ => 0xF800000000
  | .reserved20 _ => 0xE000000000
  | .reserved40 _ => 0xC000000000
  | .reserved80 _ => 0x8000000000

/-- "match" of the command's row in spec/opcode_table.json (30_encoding.md R84). -/
def Instr.rowMatch : Instr → Cmd
  | .nop => 0x0000000000
  | .getTick => 0x0100000000
  | .setMode _ => 0x0200000000
  | .getMode => 0x0300000000
  | .startWave => 0x0400000000
  | .stopWave => 0x0500000000
  | .setWaveSpeed _ => 0x0600000000
  | .setWavePeriod _ => 0x0700000000
  | .getWaveActive => 0x0800000000
  | .startSequence _ => 0x0900000000
  | .stopSequence => 0x0A00000000
  | .getSeqActive => 0x0B00000000
  | .getButtonState => 0x0C00000000
  | .getClickCount => 0x0D00000000
  | .resetClickCount => 0x0E00000000
  | .ledWrite _ _ => 0x0F00000000
  | .getOutputs => 0x1000000000
  | .getPhase => 0x1100000000
  | .getDuty _ => 0x1200000000
  | .reserved13 => 0x1300000000
  | .reserved14 _ => 0x1400000000
  | .reserved18 _ => 0x1800000000
  | .reserved20 _ => 0x2000000000
  | .reserved40 _ => 0x4000000000
  | .reserved80 _ => 0x8000000000

/-- The bits of a command word its form does not ignore (30_encoding.md R82, "bits ignored"). -/
def Instr.usedBits : Instr → Cmd
  | .nop | .getTick | .getMode | .startWave | .stopWave | .getWaveActive | .stopSequence
  | .getSeqActive | .getButtonState | .getClickCount | .resetClickCount | .getOutputs | .getPhase
  | .reserved13 | .reserved14 _ | .reserved18 _ | .reserved20 _ | .reserved40 _
  | .reserved80 _ => 0xFF00000000
  | .setMode _ | .setWaveSpeed _ | .setWavePeriod _ | .startSequence _ => 0xFFFFFFFFFF
  | .ledWrite _ _ => 0xFF0001FFFF
  | .getDuty _ => 0xFF0000FFFF

end Sys2Proof
end

