-- ==== Sys2Proof/Config.lean ====
section
/-! DEFINITION. What an implementation fixes (the parameters of 00_scope.md R9), the inputs the
environment can present (00_scope.md R7, R8), and the free values: constants without a body for what
the spec leaves OPEN or to a draw. -/

namespace Sys2Proof

/-- How the PWM carrier advances (00_scope.md R9, 42_pwm_wave.md R157 and R158). -/
inductive CarrierMode where
  /-- The carrier advances once per wave update (R157, the reference value). -/
  | perTick
  /-- The carrier advances once per channel compared (R158, the source's firmware). -/
  | perChannel
  deriving DecidableEq, Repr

/-- The parameters of 00_scope.md R9, constant over a run (10_state.md R47). The field names are the
spec's. A model "takes [them] as arguments": State carries them, and no step changes them
(DESIGN CHOICE, log 1). The number of channels is stored as the index of the highest channel, so that
every value is in the legal range 1 to 32 (log 11). -/
structure Params where
  /-- `N_CH` - 1. -/
  topChannel : Fin 32
  debounceWindow : Word
  clickSeriesInterval : Word
  /-- `MAX_CLICKS`, legal 1 to 255. -/
  maxClicks : BitVec 8
  holdThreshold : Word
  buttonPollInterval : Word
  waveMinUpdateInterval : Word
  /-- The `BTN_IN` level that means pressed. -/
  pressedLevel : Bool
  /-- `CLICK_AUTO_RESET_EN`. -/
  clickAutoReset : Bool
  clickAutoResetWindow : Word
  carrierMode : CarrierMode
  wavePeriodReset : Word
  waveSpeedReset : Word
  seqStepReset : Word
  deriving DecidableEq, Repr

/-- `N_CH`, the number of LED channels, 1 to 32. -/
def Params.nCh (p : Params) : Nat := p.topChannel.val + 1

/-- The one legal range the field types do not enforce: `MAX_CLICKS` is 1 to 255 (00_scope.md R9). -/
abbrev Params.Legal (p : Params) : Prop := 1 ≤ p.maxClicks.toNat

/-- What the environment presents at one step (00_scope.md R8, 70_reset_and_hazards.md R295). -/
inductive Input where
  /-- A `TICK` strobe, with the level the button line has during that pass. -/
  | tick (btnIn : Bool)
  /-- A command word on `CMD`. -/
  | command (cmd : Cmd)
  /-- `RESET`, with the level the button line has when it is sampled there. -/
  | reset (btnIn : Bool)
  deriving DecidableEq, Repr, Inhabited

/-- FREE VALUE: `PRESSED_LEVEL`, OPEN in 00_scope.md R9 (93_implementation_defined.md I1; log 3). -/
opaque Config.pressedLevel : Bool

/-- FREE VALUE: `CLICK_AUTO_RESET_WINDOW`, OPEN in 00_scope.md R9 (93_implementation_defined.md I2; log 4). -/
opaque Config.clickAutoResetWindow : Word

/-- FREE VALUE: the level of `BTN_IN` sampled at the power-up reset (70_reset_and_hazards.md R280,
93_implementation_defined.md I8; log 5). -/
opaque Config.btnInAtReset : Bool

/-- FREE VALUE: what the environment presents where State's schedule is empty, the n-th time this
happens (20_memory.md R66, 93_implementation_defined.md I9; log 6). -/
opaque Config.freeInput : Nat → Input

/-- `PWM_STEPS`, the length of the carrier cycle: 100 is its one legal value (00_scope.md R9). -/
def Config.pwmSteps : Nat := 100

/-- The reference configuration of 00_scope.md R9 (the two OPEN parameters are free values). -/
def Params.reference : Params where
  topChannel := 3
  debounceWindow := 25
  clickSeriesInterval := 5000
  maxClicks := 3
  holdThreshold := 2000
  buttonPollInterval := 10
  waveMinUpdateInterval := 0
  pressedLevel := Config.pressedLevel
  clickAutoReset := false
  clickAutoResetWindow := Config.clickAutoResetWindow
  carrierMode := .perTick
  wavePeriodReset := 1500
  waveSpeedReset := 1
  seqStepReset := 200

end Sys2Proof
end

