-- ==== Sys2Proof/Machine/State.lean ====
section
/-! DEFINITION. The architectural state of the tick core (10_state.md), the reasons a step can stop,
and the state after reset (10_state.md R48, 70_reset_and_hazards.md R280). -/

namespace Sys2Proof.Machine

/-- The logical button state (10_state.md R25); its 2-bit encoding is `ButtonState.code`, and the
value 3 "is never written by any rule" (log 12). -/
inductive ButtonState where
  | released
  | pressed
  | held
  deriving DecidableEq, Repr

/-- The derived mode (10_state.md R42). -/
inductive Mode where
  | static
  | pwm
  | sequence
  deriving DecidableEq, Repr

/-- Every state element of 10_state.md R48, the response port, the parameters and the environment's
schedule. -/
structure State where
  /-- The parameters of 00_scope.md R9, which no step changes (10_state.md R47; log 1). -/
  params : Params
  /-- `TICK` (10_state.md R22). -/
  tick : Word
  /-- `BTN_RAW` (10_state.md R23); no rule reads it. -/
  btnRaw : Bool
  /-- `BTN_PREV`, the committed level (10_state.md R24). -/
  btnPrev : Bool
  /-- `BTN_STATE` (10_state.md R25). -/
  btnState : ButtonState
  /-- `BTN_LAST_CHANGE` (10_state.md R26). -/
  btnLastChange : Word
  /-- `BTN_LAST_CLICK` (10_state.md R27). -/
  btnLastClick : Word
  /-- `CLICKS` (10_state.md R28), in the widest `CLICKS_W` (log 11). -/
  clicks : BitVec 8
  /-- `BTN_LAST_POLL` (10_state.md R29). -/
  btnLastPoll : Word
  /-- `WAVE_ACTIVE` (10_state.md R30). -/
  waveActive : Bool
  /-- `WAVE_PHASE` (10_state.md R31). -/
  wavePhase : Word
  /-- `WAVE_SPEED` (10_state.md R32). -/
  waveSpeed : Word
  /-- `WAVE_PERIOD` (10_state.md R33). -/
  wavePeriod : Word
  /-- `WAVE_LAST_UPDATE` (10_state.md R34). -/
  waveLastUpdate : Word
  /-- `PWM_STEP`, the shared carrier (10_state.md R35). -/
  pwmStep : Duty
  /-- `DUTY[0..N_CH-1]`, channel 0 first (10_state.md R36). -/
  duty : List Duty
  /-- `SEQ_ACTIVE` (10_state.md R37). -/
  seqActive : Bool
  /-- `SEQ_CUR`, `CH_W` = 5 bits (10_state.md R38). -/
  seqCur : BitVec 5
  /-- `SEQ_STEP` (10_state.md R39). -/
  seqStep : Word
  /-- `SEQ_LAST_STEP` (10_state.md R40). -/
  seqLastStep : Word
  /-- `OUT[N_CH-1:0]` (10_state.md R41), bit i channel i; the bits from `N_CH` up are 0 (log 11). -/
  out : Word
  /-- `RESP[31:0]`, "the response word of the last command" (00_scope.md R7; log 8). -/
  resp : Word
  /-- The model's own: what the environment presents next, the next input first (20_memory.md R66;
  log 6). -/
  env : List Input
  /-- The model's own: how many free inputs have been taken (log 6). -/
  draws : Nat
  deriving DecidableEq, Repr

/-- The faults of the tick core: none. "No step raises a synchronous exception"
(60_exceptions.md R250), and no state records an error (R251, R252). Nobody raises a fault, which is
safe: every step is total, as the spec says (log 13). -/
inductive Fault where
  deriving DecidableEq, Repr

/-- The refusals: none is raised, since every 40-bit word has a meaning (30_encoding.md R85). -/
inductive Refusal where
  /-- An instruction without a meaning yet, raised by exec's arm alone (safe); no arm raises it. -/
  | notModelled (mnemonic : String)
  deriving DecidableEq, Repr

/-- What a step of the tick core answers. -/
abbrev StepOutcome := Host.Outcome State Fault Refusal

/-- The reset state for given parameters and the level of `BTN_IN` sampled at reset
(10_state.md R48, 70_reset_and_hazards.md R280): both button levels are the sample, both engines are
inactive, and `MODE` is STATIC. -/
def State.atReset (p : Params) (btnIn : Bool) : State where
  params := p
  tick := 0
  btnRaw := btnIn
  btnPrev := btnIn
  btnState := .released
  btnLastChange := 0
  btnLastClick := 0
  clicks := 0
  btnLastPoll := 0
  waveActive := false
  wavePhase := 0
  waveSpeed := p.waveSpeedReset
  wavePeriod := p.wavePeriodReset
  waveLastUpdate := 0
  pwmStep := 0
  duty := List.replicate p.nCh 0
  seqActive := false
  seqCur := 0
  seqStep := p.seqStepReset
  seqLastStep := 0
  out := 0
  resp := 0
  env := []
  draws := 0

/-- The machine right after reset: the reference parameters (00_scope.md R9), the button level a free
value (log 5), and an environment that has presented nothing yet (log 6). -/
def State.reset : State := State.atReset Params.reference Config.btnInAtReset

end Sys2Proof.Machine
end

