-- ==== Sys2Proof/Machine/Ops.lean ====
section
/-! DEFINITION. The named operations over the registers, shared by the commands and the tick pass.
The tick core has no memory and no register file (10_state.md R20, 20_memory.md R60), and it takes no
exception: there is no trap entry and no trap return to write here (60_exceptions.md R250, R255,
R256). -/

namespace Sys2Proof.Machine

/-- `now ⊖ start`, the wrap-safe elapsed time (00_scope.md R10, R11). -/
def elapsed (now start : Word) : Word := now - start

/-- `resp <- v`, the end of every command: the response port takes `v` and the command completes
(00_scope.md R12, 30_encoding.md R83). -/
def answer (v : Word) (s : State) : StepOutcome := .next { s with resp := v }

/-- The one-bit word of channel `i`. -/
def channelBit (i : Nat) : Word := BitVec.twoPow 32 i

/-- `OUT[i] <- b` (00_scope.md R12). -/
def State.setOut (s : State) (i : Nat) (b : Bool) : State :=
  { s with out := if b then s.out ||| channelBit i else s.out &&& ~~~ channelBit i }

/-- `FORCE_OFF()`: every `OUT[i] <- 0` (44_mode_outputs.md R210). -/
def State.forceOff (s : State) : State := { s with out := 0 }

/-- The port `LED_OUT[i]`, equal to `OUT[i]` between steps (00_scope.md R7, 10_state.md R41). -/
def State.ledOut (s : State) (i : Nat) : Bool := s.out.getLsbD i

/-- `zext_32({OUT[N_CH-1], ..., OUT[0]})`: the bits from `N_CH` up read 0 (44_mode_outputs.md R214). -/
def State.outputs (s : State) : Word := s.out &&& BitVec.ofNat 32 (2 ^ s.params.nCh - 1)

/-- `DUTY[i]`; a position the file does not hold reads 0, in no state a run reaches (log 15). -/
def State.dutyAt (s : State) (i : Nat) : Duty := s.duty.getD i 0

end Sys2Proof.Machine
end

