-- ==== Sys2Proof/Machine/Flags.lean ====
section
/-! DEFINITION. The status bits (10_state.md R43) as words, and the mode derived from them (R42).
There are no condition codes and no arithmetic flags. -/

namespace Sys2Proof.Machine

/-- `MODE`, a function of the two active flags (10_state.md R42). -/
def State.mode (s : State) : Mode :=
  if s.waveActive then .pwm else if s.seqActive then .sequence else .static

/-- The encoding of `MODE`: STATIC 0, PWM 1, SEQUENCE 2 (10_state.md R42). -/
def Mode.code : Mode → Word
  | .static => 0
  | .pwm => 1
  | .sequence => 2

/-- The encoding of `BTN_STATE`: Released 0, Pressed 1, Held 2 (10_state.md R25). -/
def ButtonState.code : ButtonState → BitVec 2
  | .released => 0
  | .pressed => 1
  | .held => 2

/-- `zext_32` of a one-bit flag (00_scope.md R10). -/
def flagWord (b : Bool) : Word := if b then 1 else 0

end Sys2Proof.Machine
end

