-- ==== Sys2Proof/Machine/Sequencer.lean ====
section
/-! DEFINITION. The Sequencer (43_sequencer.md): the chase step of a pass, R190, and the sequence
commands, R191 to R193. -/

namespace Sys2Proof.Machine

/-- The step test `(now ⊖ SEQ_LAST_STEP) ≥ SEQ_STEP` (43_sequencer.md R190). -/
def seqStepDue (now : Word) (s : State) : Bool :=
  decide (s.seqStep ≤ elapsed now s.seqLastStep)

/-- `(SEQ_CUR + 1) mod N_CH` (43_sequencer.md R190). -/
def nextChannel (s : State) : BitVec 5 := BitVec.ofNat 5 ((s.seqCur.toNat + 1) % s.params.nCh)

/-- `SEQ_UPDATE(now)` (43_sequencer.md R190): the current channel off, the next one on. -/
def seqUpdate (now : Word) (s : State) : State :=
  if seqStepDue now s then
    let s := s.setOut s.seqCur.toNat false
    let s := { s with seqCur := nextChannel s }
    let s := s.setOut s.seqCur.toNat true
    { s with seqLastStep := now }
  else s

/-- The effect of `START_SEQUENCE v` (43_sequencer.md R191). -/
def startSequence (v : Word) (s : State) : State :=
  let s := { s with waveActive := false, seqStep := v }
  let s := { s.forceOff with seqCur := 0 }
  let s := s.setOut 0 true
  { s with seqLastStep := s.tick, seqActive := true }

/-- The effect of `STOP_SEQUENCE` (43_sequencer.md R192). -/
def stopSequence (s : State) : State :=
  if s.seqActive then { s.forceOff with seqActive := false } else s

/-- `START_SEQUENCE v` (43_sequencer.md R191). -/
def execStartSequence (v : Word) (s : State) : StepOutcome := answer 0 (startSequence v s)

/-- `STOP_SEQUENCE` (43_sequencer.md R192). -/
def execStopSequence (s : State) : StepOutcome := answer 0 (stopSequence s)

/-- `GET_SEQ_ACTIVE` (43_sequencer.md R193). -/
def execGetSeqActive (s : State) : StepOutcome := answer (flagWord s.seqActive) s

end Sys2Proof.Machine
end

