-- ==== Sys2Proof/Machine/DutyFn.lean ====
section
/-! DEFINITION. The duty function `DUTYFN` (42_pwm_wave.md R155): for P ≥ 1 and pos < P, the integer
nearest to y = 50 · sin(2π · pos / P) + 50. The spec fixes the value, not a method; this file computes
it exactly for every 32-bit period, with integers only (DEDUCED, log 14; Laws/DutyThresholds.lean
proves that the table of thresholds is right).

Fold pos / P into a quarter wave: the sine of 2π · pos / P is plus or minus that of 2π · x with
x = q / (2P) in [0, 1/4]. Then |y - 50| = 50 · sin(2π · x), which rounds to the number of k in 1..50
with sin(2π · x) > (2k - 1) / 100, that is with x > t_k = arcsin((2k - 1) / 100) / 2π. The fraction
x has a denominator of at most 2 · (2^32 - 1), and no fraction with so small a denominator lies in the
half-open interval from t_k up to the k-th entry c / d of the table below, the least such fraction
above t_k. So x > t_k exactly when c / d ≤ q / (2P), a comparison of products. -/

namespace Sys2Proof.Machine

/-- The k-th entry (k = 1 to 50) is the least fraction c / d above arcsin((2k - 1) / 100) / 2π with
d ≤ 2^33 - 2, written (c, d). -/
def dutyThresholds : List (Nat × Nat) :=
  [(9116150, 5727750507),
   (37915125, 7939733768),
   (39553175, 4968326092),
   (93107893, 8350510268),
   (113972431, 7946010306),
   (16391854, 934405791),
   (69846029, 3366257404),
   (181542422, 7575730647),
   (226348264, 8325182001),
   (185098219, 6083873984)] ++
  [(284263086, 8441819615),
   (270521629, 7324002479),
   (200242572, 4979261975),
   (350457537, 8054300563),
   (93045557, 1986978758),
   (238921411, 4762755977),
   (392637962, 7335684947),
   (419869831, 7377889114),
   (290945904, 4823281055),
   (518504791, 8131814225)] ++
  [(516290255, 7678816787),
   (243890767, 3447549574),
   (27598291, 371503970),
   (536806709, 6893357035),
   (581328250, 7132720579),
   (582089155, 6833852704),
   (711059599, 7998057113),
   (558730519, 6028198779),
   (690355187, 7151834612),
   (510721071, 5085033157)] ++
  [(87777699, 840659470),
   (860681603, 7934555821),
   (503538103, 4471301298),
   (708169607, 6060348154),
   (240436448, 1983885063),
   (860726840, 6850055099),
   (1109781529, 8521050904),
   (805782503, 5969941245),
   (936350855, 6694345074),
   (145311007, 1002423106)] ++
  [(445670021, 2965864592),
   (1047934622, 6724865431),
   (799030391, 4941465239),
   (1350036121, 8038768447),
   (1220589311, 6988857324),
   (1516040202, 8331753971),
   (861287719, 4530787128),
   (1647943165, 8262077636),
   (791590923, 3753091478),
   (1619934816, 7121428601)]

/-- The fraction `t.1 / t.2` is at most `q / den`. -/
def thresholdReached (q den : Nat) (t : Nat × Nat) : Bool := decide (t.1 * den ≤ q * t.2)

/-- 50 · sin(2π · q / den), rounded to the nearest integer, for 0 ≤ q / den ≤ 1/4. -/
def dutySwing (q den : Nat) : Nat := dutyThresholds.countP (thresholdReached q den)

/-- `DUTYFN(P, pos)` (42_pwm_wave.md R155), P = `p` ≥ 1 and `pos` < `p`. In the first half wave the
sine is not negative; in each half it mirrors about the half's middle. -/
def dutyFn (p pos : Nat) : Nat :=
  if 2 * pos < p then 50 + dutySwing (min (2 * pos) (p - 2 * pos)) (2 * p)
  else 50 - dutySwing (min (2 * pos - p) (2 * p - 2 * pos)) (2 * p)

end Sys2Proof.Machine
end

