-- ==== Sys2Proof/Machine/Operands.lean ====
section
/-! DEFINITION. The operand forms (30_encoding.md R82) as far as they depend on the machine: the forms
`CH` and `CHV` reduce the channel index modulo `N_CH`. The form `U32` is used whole, and the form
`none` has no operand; both are read by the decoder alone. -/

namespace Sys2Proof.Machine

/-- `ch = ARG[15:0] mod N_CH`, the operand of the forms `CH` and `CHV` (30_encoding.md R82). -/
def channelOperand (s : State) (ch : BitVec 16) : Nat := ch.toNat % s.params.nCh

end Sys2Proof.Machine
end

