-- ==== Sys2Proof/Machine/Wave.lean ====
section
/-! DEFINITION. The PWMWaveEngine (42_pwm_wave.md): the wave update of a pass, R150 to R159, and the
wave commands, R160 to R166. -/

namespace Sys2Proof.Machine

/-- The wave update is a no-op: the period is 0 (42_pwm_wave.md R151), or the minimum interval has
not passed since the last update (R152). -/
def waveUpdateSkipped (now : Word) (s : State) : Bool :=
  decide (s.wavePeriod = 0) ||
    decide (elapsed now s.waveLastUpdate < s.params.waveMinUpdateInterval)

/-- `(WAVE_PHASE + WAVE_SPEED) mod WAVE_PERIOD`, the sum exact (42_pwm_wave.md R153). -/
def nextPhase (s : State) : Word :=
  BitVec.ofNat 32 ((s.wavePhase.toNat + s.waveSpeed.toNat) % s.wavePeriod.toNat)

/-- `pos_i = (WAVE_PHASE + (WAVE_PERIOD div N_CH) * i) mod WAVE_PERIOD`, the sum exact
(42_pwm_wave.md R154). -/
def channelPosition (s : State) (i : Nat) : Nat :=
  (s.wavePhase.toNat + s.wavePeriod.toNat / s.params.nCh * i) % s.wavePeriod.toNat

/-- `DUTY[i] <- DUTYFN(WAVE_PERIOD, pos_i)` for every channel (42_pwm_wave.md R155). -/
def updateDuties (s : State) : State :=
  { s with
    duty := (List.range s.params.nCh).map fun i =>
      BitVec.ofNat 7 (dutyFn s.wavePeriod.toNat (channelPosition s i)) }

/-- `OUT[i] <- (PWM_STEP < DUTY[i]) ? 1 : 0` (42_pwm_wave.md R157, R158). -/
def compareChannel (s : State) (i : Nat) : State := s.setOut i (decide (s.pwmStep < s.dutyAt i))

/-- `PWM_STEP <- (PWM_STEP + 1) mod PWM_STEPS` (42_pwm_wave.md R157, R158). -/
def advanceCarrier (s : State) : State :=
  { s with pwmStep := BitVec.ofNat 7 ((s.pwmStep.toNat + 1) % Config.pwmSteps) }

/-- The threshold comparator and its carrier, in the mode the parameter selects
(42_pwm_wave.md R157, R158). -/
def driveOutputs (s : State) : State :=
  match s.params.carrierMode with
  | .perTick => advanceCarrier ((List.range s.params.nCh).foldl compareChannel s)
  | .perChannel => (List.range s.params.nCh).foldl (fun s i => advanceCarrier (compareChannel s i)) s

/-- `WAVE_UPDATE(now)` (42_pwm_wave.md R150). -/
def waveUpdate (now : Word) (s : State) : State :=
  if waveUpdateSkipped now s then s
  else driveOutputs (updateDuties { s with waveLastUpdate := now, wavePhase := nextPhase s })

/-- The effect of `START_WAVE` (42_pwm_wave.md R160). -/
def startWave (s : State) : State :=
  { s.forceOff with
    seqActive := false
    wavePhase := 0
    waveActive := true
    waveLastUpdate := s.tick }

/-- The effect of `STOP_WAVE` (42_pwm_wave.md R161). -/
def stopWave (s : State) : State :=
  if s.waveActive then { s.forceOff with waveActive := false } else s

/-- `START_WAVE` (42_pwm_wave.md R160). -/
def execStartWave (s : State) : StepOutcome := answer 0 (startWave s)

/-- `STOP_WAVE` (42_pwm_wave.md R161). -/
def execStopWave (s : State) : StepOutcome := answer 0 (stopWave s)

/-- `SET_WAVE_SPEED v` (42_pwm_wave.md R162). -/
def execSetWaveSpeed (v : Word) (s : State) : StepOutcome := answer 0 { s with waveSpeed := v }

/-- `SET_WAVE_PERIOD v` (42_pwm_wave.md R163). -/
def execSetWavePeriod (v : Word) (s : State) : StepOutcome := answer 0 { s with wavePeriod := v }

/-- `GET_WAVE_ACTIVE` (42_pwm_wave.md R164). -/
def execGetWaveActive (s : State) : StepOutcome := answer (flagWord s.waveActive) s

/-- `GET_PHASE` (42_pwm_wave.md R165). -/
def execGetPhase (s : State) : StepOutcome := answer s.wavePhase s

/-- `GET_DUTY ch` (42_pwm_wave.md R166). -/
def execGetDuty (ch : BitVec 16) (s : State) : StepOutcome :=
  answer ((s.dutyAt (channelOperand s ch)).zeroExtend 32) s

end Sys2Proof.Machine
end

