-- ==== Sys2Proof/Machine/ModeOutputs.lean ====
section
/-! DEFINITION. Mode control and the LED output mux (44_mode_outputs.md): the mode commands, R211 and
R212, manual control and read-back, R213 and R214, and `NOP`, R215. -/

namespace Sys2Proof.Machine

/-- The effect of `SET_MODE v` on a value that names a mode other than the current one
(44_mode_outputs.md R211). -/
def switchMode (m : Mode) (s : State) : State :=
  match m with
  | .static => stopSequence (stopWave s)
  | .pwm => startWave s
  | .sequence => startSequence s.seqStep s

/-- The mode a `SET_MODE` operand names; the values from 3 up are reserved (30_encoding.md R86). -/
def modeOfOperand (v : Word) : Option Mode :=
  if v = 0 then some .static else if v = 1 then some .pwm else if v = 2 then some .sequence else none

/-- The effect of `SET_MODE v`: none for a reserved value or the current mode
(44_mode_outputs.md R211). -/
def setMode (v : Word) (s : State) : State :=
  match modeOfOperand v with
  | none => s
  | some m => if m = s.mode then s else switchMode m s

/-- `SET_MODE v` (44_mode_outputs.md R211). -/
def execSetMode (v : Word) (s : State) : StepOutcome := answer 0 (setMode v s)

/-- `GET_MODE` (44_mode_outputs.md R212). -/
def execGetMode (s : State) : StepOutcome := answer s.mode.code s

/-- `LED_WRITE ch, val`: in STATIC mode only (44_mode_outputs.md R213). -/
def execLedWrite (ch : BitVec 16) (val : Bool) (s : State) : StepOutcome :=
  answer 0 (if s.mode = .static then s.setOut (channelOperand s ch) val else s)

/-- `GET_OUTPUTS` (44_mode_outputs.md R214). -/
def execGetOutputs (s : State) : StepOutcome := answer s.outputs s

/-- `NOP` (44_mode_outputs.md R215). -/
def execNop (s : State) : StepOutcome := answer 0 s

end Sys2Proof.Machine
end

