-- ==== Sys2Proof/Machine/Reserved.lean ====
section
/-! DEFINITION. The reserved opcodes 0x13 to 0xFF, one definition per row of spec/opcode_table.json:
"A reserved command changes no state and returns `RESP` = 0" (30_encoding.md R85; log 9). -/

namespace Sys2Proof.Machine

/-- Opcode 0x13 (30_encoding.md R85). -/
def execReserved13 (s : State) : StepOutcome := answer 0 s

/-- Opcodes 0x14 to 0x17 (30_encoding.md R85). -/
def execReserved14 (s : State) : StepOutcome := answer 0 s

/-- Opcodes 0x18 to 0x1F (30_encoding.md R85). -/
def execReserved18 (s : State) : StepOutcome := answer 0 s

/-- Opcodes 0x20 to 0x3F (30_encoding.md R85). -/
def execReserved20 (s : State) : StepOutcome := answer 0 s

/-- Opcodes 0x40 to 0x7F (30_encoding.md R85). -/
def execReserved40 (s : State) : StepOutcome := answer 0 s

/-- Opcodes 0x80 to 0xFF (30_encoding.md R85). -/
def execReserved80 (s : State) : StepOutcome := answer 0 s

end Sys2Proof.Machine
end

