-- ==== Sys2Proof/Machine/Button.lean ====
section
/-! DEFINITION. The ButtonDebouncer (41_button.md): the button update of a poll pass, R120 to R127,
and the three button commands, R130 to R132. -/

namespace Sys2Proof.Machine

/-- The click increment `INC(c)` (41_button.md R125). -/
def incClicks (maxClicks c : BitVec 8) : BitVec 8 := if c = maxClicks then 0 else c + 1

/-- A click continues the series: `(now ⊖ BTN_LAST_CLICK) < CLICK_SERIES_INTERVAL` (41_button.md R124). -/
def continuesSeries (now : Word) (s : State) : Bool :=
  decide (elapsed now s.btnLastClick < s.params.clickSeriesInterval)

/-- Click accounting (41_button.md R124). -/
def accountClick (now : Word) (s : State) : State :=
  { s with
    clicks := incClicks s.params.maxClicks (if continuesSeries now s then s.clicks else 0)
    btnLastClick := now }

/-- A commit to the pressed level (41_button.md R123). -/
def commitPress (s : State) : State := { s with btnState := .pressed }

/-- A commit to the released level, `prior` being the state before the commit: it is a click exactly
when that was Pressed (41_button.md R124). -/
def commitRelease (prior : ButtonState) (now : Word) (s : State) : State :=
  let s := if prior = .pressed then accountClick now s else s
  { s with btnState := .released }

/-- A commit: the bookkeeping of every commit, then its polarity-specific part
(41_button.md R122 to R124). -/
def commit (sample : Bool) (now : Word) (s : State) : State :=
  let prior := s.btnState
  let s := { s with btnPrev := sample, btnLastChange := now }
  if sample = s.params.pressedLevel then commitPress s else commitRelease prior now s

/-- The debounce test: a change is committed only at least `DEBOUNCE_WINDOW` after the last commit
(41_button.md R121). -/
def debounceElapsed (now : Word) (s : State) : Bool :=
  decide (s.params.debounceWindow ≤ elapsed now s.btnLastChange)

/-- The hold test on an update that sees no change (41_button.md R126). -/
def holdReached (sample : Bool) (now : Word) (s : State) : Bool :=
  decide (sample = s.params.pressedLevel) &&
    (decide (s.btnState = .pressed) || decide (s.btnState = .held)) &&
    decide (s.params.holdThreshold < elapsed now s.btnLastChange)

/-- The stale-click auto reset, the last statement of every button update (41_button.md R127). -/
def autoResetClicks (now : Word) (s : State) : State :=
  if s.params.clickAutoReset ∧ s.params.clickAutoResetWindow < elapsed now s.btnLastClick then
    { s with clicks := 0 }
  else s

/-- The button update up to the auto reset: the sample is kept, then a change is committed or ignored,
and where there is no change the hold is detected (41_button.md R120, R121, R126). -/
def senseLevel (sample : Bool) (now : Word) (s : State) : State :=
  let s := { s with btnRaw := sample }
  if sample ≠ s.btnPrev then
    if debounceElapsed now s then commit sample now s else s
  else
    if holdReached sample now s then { s with btnState := .held } else s

/-- `BUTTON_UPDATE(s, now)` (41_button.md R120). -/
def buttonUpdate (sample : Bool) (now : Word) (s : State) : State :=
  autoResetClicks now (senseLevel sample now s)

/-- `GET_BUTTON_STATE` (41_button.md R130). -/
def execGetButtonState (s : State) : StepOutcome := answer (s.btnState.code.zeroExtend 32) s

/-- `GET_CLICK_COUNT` (41_button.md R131). -/
def execGetClickCount (s : State) : StepOutcome := answer (s.clicks.zeroExtend 32) s

/-- `RESET_CLICK_COUNT` (41_button.md R132). -/
def execResetClickCount (s : State) : StepOutcome := answer 0 { s with clicks := 0 }

end Sys2Proof.Machine
end

