-- ==== Sys2Proof/Machine/Tick.lean ====
section
/-! DEFINITION. TickClock and Dispatcher (40_tick_dispatch.md): the tick pass, R100 to R104, and
`GET_TICK`, R105. -/

namespace Sys2Proof.Machine

/-- `TICK <- TICK ⊕ 1` (40_tick_dispatch.md R101). -/
def advanceTick (s : State) : State := { s with tick := s.tick + 1 }

/-- A pass with this `now` is a poll pass (40_tick_dispatch.md R103). -/
def pollDue (now : Word) (s : State) : Bool :=
  decide (s.params.buttonPollInterval ≤ elapsed now s.btnLastPoll)

/-- The button poll: on a poll pass the stamp, the sample and the button update, else nothing
(40_tick_dispatch.md R103). `btnIn` is the level of `BTN_IN` during the pass (log 7). -/
def pollButton (btnIn : Bool) (now : Word) (s : State) : State :=
  if pollDue now s then buttonUpdate btnIn now { s with btnLastPoll := now } else s

/-- The engine dispatch (40_tick_dispatch.md R104). -/
def runEngine (now : Word) (s : State) : State :=
  if s.waveActive then waveUpdate now s
  else if s.seqActive then seqUpdate now s
  else s

/-- `TICK_PASS()`: increment, button poll, engine; `now` is `TICK` after the increment
(40_tick_dispatch.md R100, R102). -/
def tickPass (btnIn : Bool) (s : State) : State :=
  let s := advanceTick s
  let now := s.tick
  runEngine now (pollButton btnIn now s)

/-- `GET_TICK` (40_tick_dispatch.md R105). -/
def execGetTick (s : State) : StepOutcome := answer s.tick s

end Sys2Proof.Machine
end

