-- ==== Sys2Proof/Machine/Dispatch.lean ====
section
/-! DEFINITION. One arm per command: the call of its meaning (30_encoding.md R84). -/

namespace Sys2Proof.Machine

/-- One host command, executed atomically against the current state (30_encoding.md R80). -/
def exec (i : Instr) (s : State) : Host.Outcome State Fault Refusal :=
  match i with
  | .nop => Sys2Proof.Machine.execNop s
  | .getTick => Sys2Proof.Machine.execGetTick s
  | .setMode v => Sys2Proof.Machine.execSetMode v s
  | .getMode => Sys2Proof.Machine.execGetMode s
  | .startWave => Sys2Proof.Machine.execStartWave s
  | .stopWave => Sys2Proof.Machine.execStopWave s
  | .setWaveSpeed v => Sys2Proof.Machine.execSetWaveSpeed v s
  | .setWavePeriod v => Sys2Proof.Machine.execSetWavePeriod v s
  | .getWaveActive => Sys2Proof.Machine.execGetWaveActive s
  | .startSequence v => Sys2Proof.Machine.execStartSequence v s
  | .stopSequence => Sys2Proof.Machine.execStopSequence s
  | .getSeqActive => Sys2Proof.Machine.execGetSeqActive s
  | .getButtonState => Sys2Proof.Machine.execGetButtonState s
  | .getClickCount => Sys2Proof.Machine.execGetClickCount s
  | .resetClickCount => Sys2Proof.Machine.execResetClickCount s
  | .ledWrite ch val => Sys2Proof.Machine.execLedWrite ch val s
  | .getOutputs => Sys2Proof.Machine.execGetOutputs s
  | .getPhase => Sys2Proof.Machine.execGetPhase s
  | .getDuty ch => Sys2Proof.Machine.execGetDuty ch s
  | .reserved13 => Sys2Proof.Machine.execReserved13 s
  | .reserved14 _ => Sys2Proof.Machine.execReserved14 s
  | .reserved18 _ => Sys2Proof.Machine.execReserved18 s
  | .reserved20 _ => Sys2Proof.Machine.execReserved20 s
  | .reserved40 _ => Sys2Proof.Machine.execReserved40 s
  | .reserved80 _ => Sys2Proof.Machine.execReserved80 s

end Sys2Proof.Machine
end

