-- ==== Sys2Proof/Machine/Environment.lean ====
section
/-! DEFINITION. What the environment presents: which input a step takes (20_memory.md R66), and the
reset step (70_reset_and_hazards.md R280). -/

namespace Sys2Proof.Machine

/-- The input the next step takes: the head of the schedule, or where the schedule is empty a free
value (20_memory.md R66; log 6). -/
def nextInput (s : State) : Input :=
  match s.env with
  | [] => Config.freeInput s.draws
  | i :: _ => i

/-- The state once that input is taken from the environment. -/
def takeInput (s : State) : State :=
  match s.env with
  | [] => { s with draws := s.draws + 1 }
  | _ :: rest => { s with env := rest }

/-- The reset step: every state element at its reset value, both button levels the sample; the
parameters stay (10_state.md R47, 70_reset_and_hazards.md R280), and so does the environment's own
schedule (log 16). -/
def resetStep (btnIn : Bool) (s : State) : State :=
  { State.atReset s.params btnIn with env := s.env, draws := s.draws }

/-- `s` with a command presented next (30_encoding.md R80). -/
def State.present (s : State) (w : Cmd) : State := { s with env := .command w :: s.env }

end Sys2Proof.Machine
end

