-- ==== Sys2Proof/Machine/Step.lean ====
section
/-! DEFINITION. One step: one complete tick pass, one complete host command, or a reset, whichever the
environment presents (00_scope.md R6, R13, 20_memory.md R66, 70_reset_and_hazards.md R280). -/

namespace Sys2Proof.Machine

/-- One atomic step on the input the environment presents. -/
def step (s : State) : Host.Outcome State Fault Refusal :=
  match nextInput s with
  | .tick btnIn => .next (tickPass btnIn (takeInput s))
  | .command w => exec (decode w) (takeInput s)
  | .reset btnIn => .next (resetStep btnIn (takeInput s))

/-- `s` with the command of `nbits` bits `w` presented next. The tick core fetches nothing: the host
"presents one word per command step" (30_encoding.md R80), so this is the host presenting it (log 6). -/
def State.withFetchWord (s : State) (nbits w : Nat) : State := s.present (tableWord nbits w)

end Sys2Proof.Machine
end

