-- ==== Sys2Proof/Safety.lean ====
section
/-! DEFINITION. What counts as a well-behaved state: the invariants of 10_state.md R46, in the terms
the statements use. -/

namespace Sys2Proof.Machine

/-- The invariants of 10_state.md R46 on one state. Item 2 holds by the type of `btnState`, and item 8
is about two states (`HeldOnlyFromPress` below). `file` and `lines` say that the per-channel files have
`N_CH` entries (10_state.md R36, R41). -/
structure State.Inv (s : State) : Prop where
  /-- Item 1. -/
  clicks : s.clicks.toNat ≤ s.params.maxClicks.toNat
  /-- Item 3. -/
  duty : ∀ d ∈ s.duty, d.toNat ≤ 100
  file : s.duty.length = s.params.nCh
  /-- Item 4. -/
  carrier : s.pwmStep.toNat < 100
  /-- Item 5. -/
  current : s.seqCur.toNat < s.params.nCh
  /-- Item 6. -/
  engines : ¬ (s.waveActive = true ∧ s.seqActive = true)
  /-- Item 7. -/
  chase : s.seqActive = true → s.out = BitVec.twoPow 32 s.seqCur.toNat
  lines : s.out.toNat < 2 ^ s.params.nCh

/-- Item 8 of 10_state.md R46 on a step: Held is not entered from Released. -/
abbrev HeldOnlyFromPress (s t : State) : Prop :=
  t.btnState = .held → s.btnState = .pressed ∨ s.btnState = .held

/-- The inputs a run is made of: passes and commands (70_reset_and_hazards.md R294). -/
def isRunInput : Input → Bool
  | .tick _ => true
  | .command _ => true
  | .reset _ => false

/-- The inputs that are `TICK` strobes (40_tick_dispatch.md R106). -/
def isTickInput : Input → Bool
  | .tick _ => true
  | .command _ => false
  | .reset _ => false

/-- The state after consecutive passes with no command between them, the button line having the given
levels, the first pass first: the item `TICK n` of 30_encoding.md R91. -/
def passes (levels : List Bool) (s : State) : State :=
  levels.foldl (fun s level => tickPass level s) s

/-- The button registers of a line that has been at the pressed level since reset: no press was ever
committed (41_button.md R129 item 3, 90_conflicts.md C5). -/
structure State.PressedSinceReset (s : State) : Prop where
  state : s.btnState = .released
  level : s.btnPrev = s.params.pressedLevel
  count : s.clicks = 0
  change : s.btnLastChange = 0

/-- The step from `s` to `t` is a pass that makes a click: a commit to the released level from state
Pressed (00_scope.md R15), the one way from Pressed to Released in a pass (41_button.md R124). -/
def IsClick (s t : State) : Prop :=
  (∃ level, nextInput s = .tick level) ∧ s.btnState = .pressed ∧ t.btnState = .released

/-- `t` is reached from `s` in some number of steps, passes, commands and resets in any order
(20_memory.md R66), none of which makes a click. -/
inductive ClicklessRun : State → State → Prop where
  | none (s : State) : ClicklessRun s s
  | more {s t u : State} : ClicklessRun s t → step t = .next u → ¬ IsClick t u → ClicklessRun s u

/-- The click count `c` after the stale-click auto reset of 41_button.md R127, for a last click at
`lastClick`. -/
def clicksUnlessStale (p : Params) (now lastClick : Word) (c : BitVec 8) : BitVec 8 :=
  if p.clickAutoReset = true ∧ p.clickAutoResetWindow < now - lastClick then 0 else c

end Sys2Proof.Machine
end

