-- ==== Sys2Proof/Certificates/Slice0/Obligations.lean ====
section
/-! DEFINITION. The statements for the provers, each from the spec rules its docstring names. They hold
for every parameter value of 00_scope.md R9, since `s.params` is arbitrary. -/

open Sys2Proof Sys2Proof.Machine

/-! ### Encoding (30_encoding.md) -/

/-- R80, R82, R84: the encoder drops no bit of an operand, for every command at every operand. -/
def Obligations.DecodeOfEncode : Prop :=
  ∀ i : Instr, i.wellFormed = true → decode (encode i) = i

/-- R82, R84: decoding reads every bit of a word but those its form ignores, and "Ignored bits have no
effect, whatever their value". -/
def Obligations.EncodeOfDecode : Prop :=
  (∀ w : Cmd, encode (decode w) = w &&& (decode w).usedBits) ∧
  (∀ (v w : Cmd) (s : State),
    v &&& (decode w).usedBits = w &&& (decode w).usedBits → exec (decode v) s = exec (decode w) s)

/-- R84, "Every 8-bit `OP` value matches exactly one row": a word matches the (match, mask) row of the
command it decodes to, which is well-formed, and no other row. -/
def Obligations.EveryWordMatchesExactlyOneRow : Prop :=
  ∀ w : Cmd,
    (decode w).wellFormed = true ∧
    w &&& (decode w).rowMask = (decode w).rowMatch ∧
    ∀ i : Instr, w &&& i.rowMask = i.rowMatch → i.rowMatch = (decode w).rowMatch

/-- R89 and the decoding table of 95_test_vectors.md 2.7: words written out bit by bit, one of each
family and form. That a channel index is held as `ARG[15:0]` (so 6, where the table reduces it to
6 mod 4 = 2) and that a reserved command keeps its opcode are the model's choices (log 2). -/
def Obligations.SpecWordsDecode : Prop :=
  decode 0x0000000000 = .nop ∧ decode 0x01FFFFFFFF = .getTick ∧ decode 0x0200000002 = .setMode 2 ∧
  decode 0x07000005DC = .setWavePeriod 1500 ∧ decode 0x09000000C8 = .startSequence 200 ∧
  decode 0x0C00000000 = .getButtonState ∧ decode 0x0F00030006 = .ledWrite 6 true ∧
  decode 0x0FFFFE0002 = .ledWrite 2 false ∧ decode 0x1200010001 = .getDuty 1 ∧
  decode 0x13DEADBEEF = .reserved13 ∧ decode 0xFF00000000 = .reserved80 0xFF

/-! ### Steps (00_scope.md R6 and R13, 20_memory.md R66) -/

/-- R80, R84: a step that is presented a command word runs exactly the command it decodes to. The
schedule `env` that presents it is the model's own (log 6). -/
def Obligations.StepRunsTheDecodedCommand : Prop :=
  (∀ (s : State) (w : Cmd) (rest : List Input), s.env = .command w :: rest →
    step s = exec (decode w) { s with env := rest }) ∧
  (∀ (s : State) (nbits w : Nat) (i : Instr), decodeTableWord nbits w = some i →
    step (s.withFetchWord nbits w) = exec i s)

/-- R6, R106: a step that is presented a strobe runs one complete tick pass. R66, "The environment
chooses how commands interleave with passes": where the schedule is empty the step is that of the free
input, whatever it is (the model's own convention, log 6). -/
def Obligations.StepRunsThePassOfAStrobe : Prop :=
  (∀ (s : State) (level : Bool) (rest : List Input), s.env = .tick level :: rest →
    step s = .next (tickPass level { s with env := rest })) ∧
  (∀ s : State, s.env = [] →
    step s = step { s with env := [Config.freeInput s.draws], draws := s.draws + 1 })

/-- R250: "No step raises a synchronous exception"; every step and every command is total. -/
def Obligations.EveryStepCompletes : Prop :=
  (∀ s : State, ∃ t, step s = .next t) ∧ (∀ (i : Instr) (s : State), ∃ t, exec i s = .next t)

/-- R47: "No step changes them", the parameters. -/
def Obligations.ParametersNeverChange : Prop :=
  ∀ s t : State, step s = .next t → t.params = s.params

/-- R48, R280: a reset puts every state element at its reset value, regardless of the prior state; and
power-up does, with the reference parameters of R9. The schedule `env` that presents the reset is the
model's own (log 6). -/
def Obligations.ResetEstablishesTheResetTable : Prop :=
  (∀ (s : State) (level : Bool) (rest : List Input), s.env = .reset level :: rest →
    ∃ t, step s = .next t ∧
      t.tick = 0 ∧ t.btnRaw = level ∧ t.btnPrev = level ∧ t.btnState = .released ∧
      t.btnLastChange = 0 ∧ t.btnLastClick = 0 ∧ t.clicks = 0 ∧ t.btnLastPoll = 0 ∧
      t.waveActive = false ∧ t.wavePhase = 0 ∧ t.waveSpeed = s.params.waveSpeedReset ∧
      t.wavePeriod = s.params.wavePeriodReset ∧ t.waveLastUpdate = 0 ∧ t.pwmStep = 0 ∧
      t.duty.length = s.params.nCh ∧ (∀ d ∈ t.duty, d = 0) ∧
      t.seqActive = false ∧ t.seqCur = 0 ∧ t.seqStep = s.params.seqStepReset ∧
      t.seqLastStep = 0 ∧ t.out = 0 ∧ t.mode = .static) ∧
  (State.reset.params = Params.reference ∧ State.reset.tick = 0 ∧
    State.reset.btnPrev = State.reset.btnRaw ∧ State.reset.btnState = .released ∧
    State.reset.btnLastChange = 0 ∧ State.reset.btnLastClick = 0 ∧ State.reset.clicks = 0 ∧
    State.reset.btnLastPoll = 0 ∧ State.reset.waveActive = false ∧ State.reset.wavePhase = 0 ∧
    State.reset.waveSpeed = 1 ∧ State.reset.wavePeriod = 1500 ∧ State.reset.waveLastUpdate = 0 ∧
    State.reset.pwmStep = 0 ∧ State.reset.duty = [0, 0, 0, 0] ∧ State.reset.seqActive = false ∧
    State.reset.seqCur = 0 ∧ State.reset.seqStep = 200 ∧ State.reset.seqLastStep = 0 ∧
    State.reset.out = 0 ∧ State.reset.mode = .static)

/-- R46: the invariants hold in the reset state, for every parameter value and button level. -/
def Obligations.ResetSatisfiesInvariants : Prop :=
  ∀ (p : Params) (level : Bool), (State.atReset p level).Inv

/-- R46: "Every step preserves the following invariants". -/
def Obligations.StepPreservesInvariants : Prop :=
  ∀ s t : State, s.Inv → step s = .next t → t.Inv

/-- R46 item 8: "Held is never entered from Released", by any step from any state. -/
def Obligations.HeldIsNeverEnteredFromReleased : Prop :=
  ∀ s t : State, step s = .next t → HeldOnlyFromPress s t

/-- R23, "No rule reads it": steps from two states that differ only in `BTN_RAW` differ at most there. -/
def Obligations.NothingReadsTheRawLevel : Prop :=
  ∀ (s : State) (raw : Bool), ∃ t raw', step s = .next t ∧
    step { s with btnRaw := raw } = .next { t with btnRaw := raw' }

/-! ### TickClock and Dispatcher (40_tick_dispatch.md) -/

/-- R101: `TICK` advances by one in every pass, wraps to 0, and is written nowhere else. -/
def Obligations.TickAdvancesOncePerPass : Prop :=
  (∀ (s : State) (level : Bool), (tickPass level s).tick = s.tick + 1) ∧
  (∀ (s : State) (level : Bool), s.tick = 0xFFFFFFFF → (tickPass level s).tick = 0) ∧
  (∀ (i : Instr) (s t : State), exec i s = .next t → t.tick = s.tick)

/-- R100, R102 to R104: the order of a pass, and what each part sees. -/
def Obligations.PassRunsItsPartsInOrder : Prop :=
  ∀ (level : Bool) (s : State),
    let now := s.tick + 1
    let polled := if s.params.buttonPollInterval ≤ now - s.btnLastPoll
      then buttonUpdate level now { s with tick := now, btnLastPoll := now }
      else { s with tick := now }
    tickPass level s =
      if polled.waveActive then waveUpdate now polled
      else if polled.seqActive then seqUpdate now polled
      else polled

/-- R107, the elapsed-time law: k passes with any commands between them advance `TICK` by k, so the
age of a stamp taken at the start is k modulo 2^32. The schedule `env` that presents them, and that the
run takes exactly these inputs from it (`t.env = rest`), are the model's own (log 6). -/
def Obligations.ElapsedTimeLaw : Prop :=
  ∀ (s : State) (inputs rest : List Input), s.env = inputs ++ rest → inputs.all isRunInput = true →
    ∃ t, core.run inputs.length s = .next t ∧ t.env = rest ∧
      t.tick = s.tick + BitVec.ofNat 32 (inputs.countP isTickInput) ∧
      (t.tick - s.tick).toNat = inputs.countP isTickInput % 2 ^ 32

/-- R103, R253: on a pass that is no poll pass the level of `BTN_IN` is invisible and no button register
changes. -/
def Obligations.ButtonUnseenBetweenPolls : Prop :=
  ∀ (a b : Bool) (s : State), s.tick + 1 - s.btnLastPoll < s.params.buttonPollInterval →
    tickPass a s = tickPass b s ∧
    (tickPass a s).btnRaw = s.btnRaw ∧ (tickPass a s).btnPrev = s.btnPrev ∧
    (tickPass a s).btnState = s.btnState ∧ (tickPass a s).btnLastChange = s.btnLastChange ∧
    (tickPass a s).btnLastClick = s.btnLastClick ∧ (tickPass a s).clicks = s.clicks ∧
    (tickPass a s).btnLastPoll = s.btnLastPoll

/-- R100: what a pass leaves unchanged. That the response port keeps its value over a pass is the model's
choice (R7; log 8), and the schedule `env` and its counter `draws` are the model's own (log 6). -/
def Obligations.PassFrame : Prop :=
  ∀ (level : Bool) (s : State), let t := tickPass level s
    t.waveActive = s.waveActive ∧ t.seqActive = s.seqActive ∧ t.mode = s.mode ∧
    t.waveSpeed = s.waveSpeed ∧ t.wavePeriod = s.wavePeriod ∧ t.seqStep = s.seqStep ∧
    t.resp = s.resp ∧ t.params = s.params ∧ t.env = s.env ∧ t.draws = s.draws ∧
    (s.waveActive = false → t.wavePhase = s.wavePhase ∧ t.waveLastUpdate = s.waveLastUpdate ∧
      t.duty = s.duty ∧ t.pwmStep = s.pwmStep) ∧
    (s.waveActive = true ∨ s.seqActive = false →
      t.seqCur = s.seqCur ∧ t.seqLastStep = s.seqLastStep) ∧
    (s.mode = .static → t.out = s.out)

/-- R100, R120: the button reaches no output and no engine: two states that differ only in the seven
button registers, and passes that see any two levels, agree on everything but the button registers
afterwards. The same of a command, whose response differs only where it is a button query (R130,
R131). -/
def Obligations.ButtonNeverReachesTheOutputs : Prop :=
  ∀ (s : State) (raw prev : Bool) (state : ButtonState) (change click poll : Word)
    (count : BitVec 8),
    let other := { s with
      btnRaw := raw, btnPrev := prev, btnState := state, btnLastChange := change
      btnLastClick := click, clicks := count, btnLastPoll := poll }
    (∀ a b : Bool, let t := tickPass a s
      let u := tickPass b other
      u = { t with
        btnRaw := u.btnRaw, btnPrev := u.btnPrev, btnState := u.btnState
        btnLastChange := u.btnLastChange, btnLastClick := u.btnLastClick, clicks := u.clicks
        btnLastPoll := u.btnLastPoll }) ∧
    (∀ (i : Instr) (t u : State), exec i s = .next t → exec i other = .next u →
      u = { t with
        btnRaw := u.btnRaw, btnPrev := u.btnPrev, btnState := u.btnState
        btnLastChange := u.btnLastChange, btnLastClick := u.btnLastClick, clicks := u.clicks
        btnLastPoll := u.btnLastPoll, resp := u.resp } ∧
      (i ≠ .getButtonState → i ≠ .getClickCount → u.resp = t.resp))

/-- R105, R212, R42: `GET_TICK` and `GET_MODE`. -/
def Obligations.TickAndModeQueries : Prop :=
  ∀ s : State,
    exec .getTick s = .next { s with resp := s.tick } ∧
    exec .getMode s = .next { s with resp :=
      if s.waveActive = true then 1 else if s.seqActive = true then 2 else 0 }

/-! ### ButtonDebouncer (41_button.md) -/

/-- R120: a button update writes `BTN_RAW` and at most the other five button registers. -/
def Obligations.ButtonUpdateFrame : Prop :=
  ∀ (sample : Bool) (now : Word) (s : State), let t := buttonUpdate sample now s
    t = { s with
      btnRaw := sample, btnPrev := t.btnPrev, btnState := t.btnState
      btnLastChange := t.btnLastChange, btnLastClick := t.btnLastClick, clicks := t.clicks }

/-- R121, R122: a change is committed only at least `DEBOUNCE_WINDOW` after the last commit; before
that the sample is ignored, so that only `BTN_RAW` takes it (R120). Without a change neither commit
register moves, and no click is made (R27, R28, R126). The auto reset of R127 ends every update. -/
def Obligations.DebounceLockout : Prop :=
  ∀ (sample : Bool) (now : Word) (s : State), let t := buttonUpdate sample now s
    (sample ≠ s.btnPrev → s.params.debounceWindow ≤ now - s.btnLastChange →
      t.btnPrev = sample ∧ t.btnLastChange = now) ∧
    (sample ≠ s.btnPrev → now - s.btnLastChange < s.params.debounceWindow →
      t.btnRaw = sample ∧ t.btnPrev = s.btnPrev ∧ t.btnLastChange = s.btnLastChange ∧
      t.btnState = s.btnState ∧ t.btnLastClick = s.btnLastClick ∧
      t.clicks = clicksUnlessStale s.params now s.btnLastClick s.clicks) ∧
    (sample = s.btnPrev → t.btnPrev = s.btnPrev ∧ t.btnLastChange = s.btnLastChange ∧
      t.btnLastClick = s.btnLastClick ∧
      t.clicks = clicksUnlessStale s.params now s.btnLastClick s.clicks)

/-- R121 to R123: a commit to the pressed level gives Pressed, restarts the hold timer, and counts
nothing; the auto reset of R127 ends the update. -/
def Obligations.PressCommit : Prop :=
  ∀ (now : Word) (s : State), let t := buttonUpdate s.params.pressedLevel now s
    s.params.pressedLevel ≠ s.btnPrev → s.params.debounceWindow ≤ now - s.btnLastChange →
      t.btnState = .pressed ∧ t.btnLastChange = now ∧ t.btnLastClick = s.btnLastClick ∧
      t.clicks = clicksUnlessStale s.params now s.btnLastClick s.clicks

/-- R124, R125: a commit to the released level gives Released, and is a click exactly when the state
was Pressed. -/
def Obligations.ReleaseCommit : Prop :=
  ∀ (now : Word) (s : State), let t := buttonUpdate (!s.params.pressedLevel) now s
    let series := if now - s.btnLastClick < s.params.clickSeriesInterval then s.clicks else 0
    (!s.params.pressedLevel) ≠ s.btnPrev → s.params.debounceWindow ≤ now - s.btnLastChange →
      t.btnState = .released ∧
      (s.btnState = .pressed → t.btnLastClick = now ∧
        t.clicks = if series = s.params.maxClicks then 0 else series + 1) ∧
      (s.btnState ≠ .pressed → t.btnLastClick = s.btnLastClick ∧
        t.clicks = clicksUnlessStale s.params now s.btnLastClick s.clicks)

/-- R126: hold detection on an update that sees no change; once Held, always Held until a commit. -/
def Obligations.HoldDetection : Prop :=
  ∀ (sample : Bool) (now : Word) (s : State), let t := buttonUpdate sample now s
    (sample = s.btnPrev → sample = s.params.pressedLevel →
      s.btnState = .pressed ∨ s.btnState = .held →
      s.params.holdThreshold < now - s.btnLastChange → t.btnState = .held) ∧
    (sample = s.btnPrev →
      ¬ (sample = s.params.pressedLevel ∧ (s.btnState = .pressed ∨ s.btnState = .held) ∧
        s.params.holdThreshold < now - s.btnLastChange) → t.btnState = s.btnState) ∧
    (s.btnState = .held → t.btnLastChange = s.btnLastChange → t.btnPrev = s.btnPrev →
      t.btnState = .held)

/-- R127: the stale-click auto reset is the last statement of every update, on every poll pass; a click
of the same update survives it; it never changes `BTN_LAST_CLICK`. -/
def Obligations.StaleClickAutoReset : Prop :=
  ∀ (sample : Bool) (now : Word) (s : State),
    let t := buttonUpdate sample now s
    let u := buttonUpdate sample now
      { s with params := { s.params with clickAutoReset := false } }
    t.clicks = clicksUnlessStale s.params now u.btnLastClick u.clicks ∧
    t.btnLastClick = u.btnLastClick ∧ t.btnState = u.btnState ∧ t.btnPrev = u.btnPrev ∧
    t.btnLastChange = u.btnLastChange ∧
    (u.btnLastClick = now → t.clicks = u.clicks)

/-- R128 item 1: a new level that is held is committed exactly once. -/
def Obligations.CommitHappensExactlyOnce : Prop :=
  ∀ (sample : Bool) (now later : Word) (s : State),
    sample ≠ s.btnPrev → s.params.debounceWindow ≤ now - s.btnLastChange →
      (buttonUpdate sample now s).btnLastChange = now ∧
      (buttonUpdate sample later (buttonUpdate sample now s)).btnLastChange = now ∧
      (buttonUpdate sample later (buttonUpdate sample now s)).btnPrev = sample

/-- R128 items 3 and 4: a press and a release, each past the lockout, make one click that continues or
starts a series; with a hold between them they make none. -/
def Obligations.PressAndReleaseMakeOneClick : Prop :=
  ∀ (n1 n2 n3 : Word) (s : State), s.params.clickAutoReset = false →
    s.btnPrev ≠ s.params.pressedLevel → s.params.debounceWindow ≤ n1 - s.btnLastChange →
    s.params.debounceWindow ≤ n3 - n1 →
    let pressed := buttonUpdate s.params.pressedLevel n1 s
    let kept := buttonUpdate s.params.pressedLevel n2 pressed
    let t := buttonUpdate (!s.params.pressedLevel) n3 kept
    let series := if n3 - s.btnLastClick < s.params.clickSeriesInterval then s.clicks else 0
    t.btnState = .released ∧ t.btnLastChange = n3 ∧
    (n2 - n1 ≤ s.params.holdThreshold → kept.btnState = .pressed ∧ t.btnLastClick = n3 ∧
      t.clicks = if series = s.params.maxClicks then 0 else series + 1) ∧
    (s.params.holdThreshold < n2 - n1 → kept.btnState = .held ∧
      t.btnLastClick = s.btnLastClick ∧ t.clicks = s.clicks)

/-- R129 item 3 and conflict C5: a reset with the line pressed leaves no press, and from every state
that has had none since, every command and every strobe at the pressed level, in any order (R66),
leaves such a state: neither Pressed nor Held is reached, and no click is counted. The schedule that
presents them is the model's own (log 6). -/
def Obligations.LinePressedAtResetIsNoPress : Prop :=
  (∀ p : Params, (State.atReset p p.pressedLevel).PressedSinceReset) ∧
  (∀ s t : State, s.PressedSinceReset →
    (∃ w, nextInput s = .command w) ∨ nextInput s = .tick s.params.pressedLevel →
    step s = .next t → t.PressedSinceReset)

/-- R283, R129 item 2: no commit happens on a pass with `now` < `DEBOUNCE_WINDOW` after reset, whatever
the levels and whatever commands come between the passes (R66). The schedule that presents them is
the model's own (log 6). -/
def Obligations.StartUpLockout : Prop :=
  ∀ (p : Params) (sample : Bool) (inputs rest : List Input), inputs.all isRunInput = true →
    inputs.countP isTickInput < p.debounceWindow.toNat →
    ∃ t, core.run inputs.length { State.atReset p sample with env := inputs ++ rest } = .next t ∧
      t.env = rest ∧ t.tick.toNat = inputs.countP isTickInput ∧
      t.btnPrev = sample ∧ t.btnState = .released ∧ t.btnLastChange = 0 ∧ t.clicks = 0 ∧
      t.btnLastClick = 0

/-- R130, R131: the button queries. -/
def Obligations.ButtonQueries : Prop :=
  ∀ s : State,
    exec .getButtonState s = .next { s with resp :=
      match s.btnState with
      | .released => 0
      | .pressed => 1
      | .held => 2 } ∧
    exec .getClickCount s = .next { s with resp := BitVec.ofNat 32 s.clicks.toNat }

/-- R132: `RESET_CLICK_COUNT`, whatever its `ARG`; issued again it changes nothing more; and the count
of the next click after it, within the series or not: whenever that click comes, and in particular
at the very next button update that commits the release of a press in progress. -/
def Obligations.ResetClickCountClearsTheCount : Prop :=
  (∀ (w : Cmd) (s : State), w.extractLsb' 32 8 = 0x0E →
    exec (decode w) s = .next { s with clicks := 0, resp := 0 }) ∧
  (∀ s t : State, exec .resetClickCount s = .next t →
    t = { s with clicks := 0, resp := 0 } ∧ exec .resetClickCount t = .next t) ∧
  (∀ s t u v : State, exec .resetClickCount s = .next t → s.params.Legal → ClicklessRun t u →
    step u = .next v → IsClick u v → u.clicks = 0 ∧ v.clicks = 1) ∧
  (∀ (s t : State) (now : Word), exec .resetClickCount s = .next t → s.params.Legal →
    s.btnState = .pressed → s.btnPrev = s.params.pressedLevel →
    s.params.debounceWindow ≤ now - s.btnLastChange →
      (buttonUpdate (!s.params.pressedLevel) now t).clicks = 1)

/-! ### PWMWaveEngine (42_pwm_wave.md) -/

/-- R151, R152: which updates are skipped, and that a skipped one changes nothing at all. -/
def Obligations.SkippedWaveUpdateChangesNothing : Prop :=
  ∀ (now : Word) (s : State),
    (s.wavePeriod = 0 → waveUpdate now s = s) ∧
    (now - s.waveLastUpdate < s.params.waveMinUpdateInterval → waveUpdate now s = s) ∧
    (s.wavePeriod ≠ 0 → s.params.waveMinUpdateInterval ≤ now - s.waveLastUpdate →
      (waveUpdate now s).waveLastUpdate = now)

/-- R153, R154, R155: the phase, and every channel's duty, after an update that runs. -/
def Obligations.PhaseAndDutiesOfAWaveUpdate : Prop :=
  ∀ (now : Word) (s : State), s.wavePeriod ≠ 0 →
    s.params.waveMinUpdateInterval ≤ now - s.waveLastUpdate →
    let t := waveUpdate now s
    t.wavePhase.toNat = (s.wavePhase.toNat + s.waveSpeed.toNat) % s.wavePeriod.toNat ∧
    t.wavePhase.toNat < s.wavePeriod.toNat ∧ t.duty.length = s.params.nCh ∧
    ∀ i < s.params.nCh, (t.dutyAt i).toNat =
      dutyFn s.wavePeriod.toNat
        ((t.wavePhase.toNat + s.wavePeriod.toNat / s.params.nCh * i) % s.wavePeriod.toNat)

/-- R157, R159: with the per-tick carrier every channel is compared with the same value, which then
advances once. -/
def Obligations.PerTickComparator : Prop :=
  ∀ (now : Word) (s : State), s.wavePeriod ≠ 0 →
    s.params.waveMinUpdateInterval ≤ now - s.waveLastUpdate → s.params.carrierMode = .perTick →
    let t := waveUpdate now s
    (∀ i < s.params.nCh, t.ledOut i = decide (s.pwmStep.toNat < (t.dutyAt i).toNat)) ∧
    t.pwmStep.toNat = (s.pwmStep.toNat + 1) % 100

/-- R158, R159: with the per-channel carrier channel i is compared with the carrier plus i, modulo 100,
and an update advances the carrier by `N_CH`. -/
def Obligations.PerChannelComparator : Prop :=
  ∀ (now : Word) (s : State), s.wavePeriod ≠ 0 →
    s.params.waveMinUpdateInterval ≤ now - s.waveLastUpdate → s.params.carrierMode = .perChannel →
    s.pwmStep.toNat < 100 →
    let t := waveUpdate now s
    (∀ i < s.params.nCh,
      t.ledOut i = decide ((s.pwmStep.toNat + i) % 100 < (t.dutyAt i).toNat)) ∧
    t.pwmStep.toNat = (s.pwmStep.toNat + s.params.nCh) % 100

/-- R150: what a wave update leaves unchanged. -/
def Obligations.WaveUpdateFrame : Prop :=
  ∀ (now : Word) (s : State), let t := waveUpdate now s
    t = { s with
      waveLastUpdate := t.waveLastUpdate, wavePhase := t.wavePhase, duty := t.duty
      pwmStep := t.pwmStep, out := t.out } ∧
    ∀ i, s.params.nCh ≤ i → t.ledOut i = s.ledOut i

/-- R157: "With a constant duty d, a channel is on in exactly d of every 100 consecutive updates that
run". The phase is frozen by speed 0 (R153), so that the duty is constant. -/
def Obligations.ChannelIsOnForItsDutyShare : Prop :=
  ∀ (s : State) (level : Bool) (i : Nat), s.Inv → s.waveActive = true → s.wavePeriod ≠ 0 →
    s.waveSpeed = 0 → s.params.waveMinUpdateInterval = 0 → s.params.carrierMode = .perTick →
    i < s.params.nCh →
    (List.range 100).countP
        (fun k => (passes (List.replicate (k + 1) level) s).ledOut i) =
      ((passes [level] s).dutyAt i).toNat

/-- R153, R160 and the full-cycle property: n passes after `START_WAVE` the phase is n times the speed
modulo the period, so it returns to 0 after a full cycle. -/
def Obligations.PhaseAfterPasses : Prop :=
  ∀ (s t : State) (levels : List Bool), exec .startWave s = .next t → s.wavePeriod ≠ 0 →
    s.params.waveMinUpdateInterval = 0 →
    (passes levels t).wavePhase.toNat =
      levels.length * s.waveSpeed.toNat % s.wavePeriod.toNat

/-- R160, R161: `START_WAVE`, `STOP_WAVE`, and that a stop does nothing to an inactive engine. -/
def Obligations.StartAndStopWave : Prop :=
  ∀ s : State,
    exec .startWave s = .next { s with
      seqActive := false, out := 0, wavePhase := 0, waveActive := true, waveLastUpdate := s.tick
      resp := 0 } ∧
    (s.waveActive = true → exec .stopWave s = .next { s with waveActive := false, out := 0, resp := 0 }) ∧
    (s.waveActive = false → exec .stopWave s = .next { s with resp := 0 })

/-- R162, R163: the setters take every value and change nothing else, the phase among it. -/
def Obligations.WaveSetters : Prop :=
  ∀ (v : Word) (s : State),
    exec (.setWaveSpeed v) s = .next { s with waveSpeed := v, resp := 0 } ∧
    exec (.setWavePeriod v) s = .next { s with wavePeriod := v, resp := 0 }

/-- R164, R165, R166: the wave queries; `GET_DUTY` reduces its index modulo `N_CH`. -/
def Obligations.WaveQueries : Prop :=
  ∀ (s : State) (ch : BitVec 16),
    exec .getWaveActive s = .next { s with resp := if s.waveActive then 1 else 0 } ∧
    exec .getPhase s = .next { s with resp := s.wavePhase } ∧
    exec (.getDuty ch) s =
      .next { s with resp := BitVec.ofNat 32 (s.dutyAt (ch.toNat % s.params.nCh)).toNat }

/-! ### The duty function (42_pwm_wave.md R155, R156; 45_duty_rom.md) -/

/-- R155: for every 32-bit period, `DUTYFN(P, pos)` is an integer in 0..100 less than 1/2 away from
50 sin(2π pos / P) + 50; so it is the unique nearest one, and no tie occurs. -/
def Obligations.DutyIsTheNearestInteger : Prop :=
  ∀ p pos : Nat, 1 ≤ p → p < 2 ^ 32 → pos < p →
    dutyFn p pos ≤ 100 ∧
    |50 * Real.sin (2 * Real.pi * pos / p) + 50 - (dutyFn p pos : ℝ)| < 1 / 2

/-- R156 items 1, 2 and 3: the range, and the values at the start and the quarters. -/
def Obligations.DutyRangeAndQuarters : Prop :=
  (∀ p pos : Nat, dutyFn p pos ≤ 100) ∧ (∀ p : Nat, 1 ≤ p → dutyFn p 0 = 50) ∧
  (∀ m : Nat, 1 ≤ m → dutyFn (4 * m) m = 100 ∧ dutyFn (4 * m) (3 * m) = 0)

/-- R156 items 4, 5 and 6: odd symmetry, the half-period sum, and the mirror. -/
def Obligations.DutySymmetries : Prop :=
  (∀ p pos : Nat, pos < p → dutyFn p ((p - pos) % p) + dutyFn p pos = 100) ∧
  (∀ h pos : Nat, pos < 2 * h → dutyFn (2 * h) pos + dutyFn (2 * h) ((pos + h) % (2 * h)) = 100) ∧
  (∀ h pos : Nat, pos < 2 * h → dutyFn (2 * h) ((2 * h + h - pos) % (2 * h)) = dutyFn (2 * h) pos)

/-- R156 item 5: with four channels and a period that four divides, opposite channels' duties add up to
exactly 100 after every update that runs. -/
def Obligations.OppositeChannelsSumToHundred : Prop :=
  ∀ (now : Word) (s : State), s.params.nCh = 4 → s.wavePeriod ≠ 0 → s.wavePeriod.toNat % 4 = 0 →
    s.params.waveMinUpdateInterval ≤ now - s.waveLastUpdate →
    let t := waveUpdate now s
    (t.dutyAt 0).toNat + (t.dutyAt 2).toNat = 100 ∧ (t.dutyAt 1).toNat + (t.dutyAt 3).toNat = 100

/-- R241, the quarter-wave table for period 1500: the first position in 0..375 of each duty 50..100. -/
def Obligations.QuarterWaveTable : Prop :=
  let firsts : List Nat :=
    [0, 3, 8, 12, 17, 22, 27, 32, 36, 41, 46, 51, 56, 61, 66, 71, 76] ++
    [81, 86, 91, 96, 101, 107, 112, 117, 123, 128, 134, 140, 145, 151, 157, 163, 169] ++
    [176, 182, 189, 196, 203, 210, 218, 226, 234, 243, 252, 262, 273, 286, 300, 317, 342]
  (∀ pos ≤ 375, dutyFn 1500 pos = 49 + firsts.countP (fun first => first ≤ pos)) ∧
  (∀ pos ≤ 750, 375 < pos → dutyFn 1500 pos = dutyFn 1500 (750 - pos)) ∧
  (∀ pos < 1500, 750 < pos → dutyFn 1500 pos = 100 - dutyFn 1500 (pos - 750))

/-! ### Sequencer (43_sequencer.md) -/

/-- R190: the chase step, and that nothing changes before it is due. -/
def Obligations.ChaseStep : Prop :=
  ∀ (now : Word) (s : State), let t := seqUpdate now s
    (now - s.seqLastStep < s.seqStep → t = s) ∧
    (s.seqStep ≤ now - s.seqLastStep →
      t = { s with seqCur := t.seqCur, seqLastStep := now, out := t.out } ∧
      t.seqCur.toNat = (s.seqCur.toNat + 1) % s.params.nCh ∧
      ∀ i < 32, t.ledOut i =
        if i = t.seqCur.toNat then true else if i = s.seqCur.toNat then false else s.ledOut i)

/-- R191: `START_SEQUENCE`. -/
def Obligations.StartSequenceCommand : Prop :=
  ∀ (v : Word) (s : State), exec (.startSequence v) s = .next { s with
    waveActive := false, seqStep := v, out := 1, seqCur := 0, seqLastStep := s.tick
    seqActive := true, resp := 0 }

/-- R192, R193: `STOP_SEQUENCE` and `GET_SEQ_ACTIVE`. -/
def Obligations.StopSequenceAndQuery : Prop :=
  ∀ s : State,
    (s.seqActive = true →
      exec .stopSequence s = .next { s with seqActive := false, out := 0, resp := 0 }) ∧
    (s.seqActive = false → exec .stopSequence s = .next { s with resp := 0 }) ∧
    exec .getSeqActive s = .next { s with resp := if s.seqActive then 1 else 0 }

/-- R194 item 5, the sequencer schedule: n passes after a start with step d ≥ 1 exactly channel
(n div d) mod `N_CH` is lit, for every n (the wrap of `TICK` included, R288). -/
def Obligations.ChaseSchedule : Prop :=
  ∀ (s t : State) (d : Word) (levels : List Bool), exec (.startSequence d) s = .next t →
    1 ≤ d.toNat →
    let u := passes levels t
    u.seqCur.toNat = levels.length / d.toNat % s.params.nCh ∧
    ∀ i < 32, u.ledOut i = decide (i = levels.length / d.toNat % s.params.nCh)

/-! ### Mode control and outputs (44_mode_outputs.md) -/

/-- R211, R86: `SET_MODE`: no effect for a reserved value or the current mode; otherwise what a stop or
start of the mode it names does (R161, R192, R160, R191 with the stored step). Of R86 and the refusal of reserved values that file 93
I4 advises, the model takes R86 (log 10). -/
def Obligations.SetModeCommand : Prop :=
  ∀ (v : Word) (s : State),
    (3 ≤ v.toNat → exec (.setMode v) s = .next { s with resp := 0 }) ∧
    (v = s.mode.code → exec (.setMode v) s = .next { s with resp := 0 }) ∧
    (v = 0 → s.mode ≠ .static → exec (.setMode v) s =
      .next { s with waveActive := false, seqActive := false, out := 0, resp := 0 }) ∧
    (v = 1 → s.mode ≠ .pwm → exec (.setMode v) s = .next { s with
      seqActive := false, out := 0, wavePhase := 0, waveActive := true, waveLastUpdate := s.tick
      resp := 0 }) ∧
    (v = 2 → s.mode ≠ .sequence → exec (.setMode v) s = .next { s with
      waveActive := false, out := 1, seqCur := 0, seqLastStep := s.tick, seqActive := true
      resp := 0 })

/-- R213: `LED_WRITE` writes one line in STATIC mode and does nothing in another. -/
def Obligations.LedWriteCommand : Prop :=
  ∀ (ch : BitVec 16) (val : Bool) (s : State),
    (s.waveActive = false → s.seqActive = false → ∃ t, exec (.ledWrite ch val) s = .next t ∧
      t = { s with out := t.out, resp := 0 } ∧
      ∀ i < 32, t.ledOut i = if i = ch.toNat % s.params.nCh then val else s.ledOut i) ∧
    (s.waveActive = true ∨ s.seqActive = true →
      exec (.ledWrite ch val) s = .next { s with resp := 0 })

/-- R214: `GET_OUTPUTS`: bit i of the response is channel i, and the bits from `N_CH` up are 0. -/
def Obligations.GetOutputsCommand : Prop :=
  ∀ s : State, ∃ t, exec .getOutputs s = .next t ∧ t = { s with resp := t.resp } ∧
    ∀ i < 32, t.resp.getLsbD i = (decide (i < s.params.nCh) && s.ledOut i)

/-- R85: "A reserved command changes no state and returns `RESP` = 0", for every word with `OP` from
0x13 up, so for each of the six reserved constructors (of R85 and the refusal that file 93 I3 advises,
the model takes R85: log 9); and R215: neither does `NOP`, whatever its `ARG`. -/
def Obligations.ReservedAndNopDoNothing : Prop :=
  (∀ (w : Cmd) (s : State), w.extractLsb' 32 8 = 0x00 ∨ 0x13 ≤ (w.extractLsb' 32 8).toNat →
    exec (decode w) s = .next { s with resp := 0 }) ∧
  (∀ (op : Opcode) (s : State),
    exec .nop s = .next { s with resp := 0 } ∧
    exec .reserved13 s = .next { s with resp := 0 } ∧
    exec (.reserved14 op) s = .next { s with resp := 0 } ∧
    exec (.reserved18 op) s = .next { s with resp := 0 } ∧
    exec (.reserved20 op) s = .next { s with resp := 0 } ∧
    exec (.reserved40 op) s = .next { s with resp := 0 } ∧
    exec (.reserved80 op) s = .next { s with resp := 0 })

/-- R64: a query changes nothing but the response, and every command is idempotent: issued twice in a
row, with no pass between, it gives the same state and response as issued once. -/
def Obligations.QueriesAndRepeatedCommands : Prop :=
  (∀ (i : Instr) (s t : State),
    (i = .getTick ∨ i = .getMode ∨ i = .getWaveActive ∨ i = .getSeqActive ∨ i = .getButtonState ∨
      i = .getClickCount ∨ i = .getOutputs ∨ i = .getPhase ∨ (∃ ch, i = .getDuty ch) ∨ i = .nop) →
    exec i s = .next t → t = { s with resp := t.resp }) ∧
  (∀ (i : Instr) (s t : State), exec i s = .next t → exec i t = .next t)

/-- R22 to R29, R35, R36: no command writes the clock, the button registers but `CLICKS`, the carrier
or the duties. R47: nor the parameters. The schedule `env` and its counter `draws`, which no command
touches, are the model's own (log 6). -/
def Obligations.CommandsLeaveThePassRegisters : Prop :=
  ∀ (i : Instr) (s t : State), exec i s = .next t →
    t.tick = s.tick ∧ t.btnRaw = s.btnRaw ∧ t.btnPrev = s.btnPrev ∧ t.btnState = s.btnState ∧
    t.btnLastChange = s.btnLastChange ∧ t.btnLastClick = s.btnLastClick ∧
    t.btnLastPoll = s.btnLastPoll ∧ t.pwmStep = s.pwmStep ∧ t.duty = s.duty ∧
    t.params = s.params ∧ t.env = s.env ∧ t.draws = s.draws ∧
    (i ≠ .resetClickCount → t.clicks = s.clicks)

/-- R32, R33, R39: `WAVE_SPEED`, `WAVE_PERIOD` and `SEQ_STEP` are written by their own commands only
(besides a reset). The schedule that presents the commands is the model's own (log 6). -/
def Obligations.SettingsHaveOneWriter : Prop :=
  ∀ s t : State, step s = .next t → (∀ level, nextInput s ≠ .reset level) →
    ((∀ w v, nextInput s = .command w → decode w ≠ .setWaveSpeed v) → t.waveSpeed = s.waveSpeed) ∧
    ((∀ w v, nextInput s = .command w → decode w ≠ .setWavePeriod v) →
      t.wavePeriod = s.wavePeriod) ∧
    ((∀ w v, nextInput s = .command w → decode w ≠ .startSequence v) → t.seqStep = s.seqStep)

/-- R210: the outputs are forced off at every change of owner, so no line keeps a level a previous owner
set; the chase then lights channel 0. -/
def Obligations.OwnerChangeForcesOutputsOff : Prop :=
  ∀ (i : Instr) (s t : State), s.Inv → exec i s = .next t → t.mode ≠ s.mode →
    t.out = if t.mode = .sequence then 1 else 0

/-- R210, R216: only the owner that the mode names writes the outputs. Of the passes: in STATIC mode a
pass leaves them, in PWM mode they are those of its wave update, in SEQUENCE mode those of its
sequencer update. Of the commands that keep the mode: in PWM and SEQUENCE mode none changes them but a
restart of the engine, in STATIC mode only `LED_WRITE` does. -/
def Obligations.OnlyTheOwnerWritesTheOutputs : Prop :=
  (∀ (level : Bool) (s : State), (tickPass level s).out =
    match s.mode with
    | .static => s.out
    | .pwm => (waveUpdate (s.tick + 1) s).out
    | .sequence => (seqUpdate (s.tick + 1) s).out) ∧
  (∀ (i : Instr) (s t : State), s.Inv → exec i s = .next t → t.mode = s.mode →
    (∀ ch val, s.mode = .static → i ≠ .ledWrite ch val) →
    (s.mode = .pwm → i ≠ .startWave) → (∀ v, s.mode = .sequence → i ≠ .startSequence v) →
    t.out = s.out)
end

