-- ==== Sys2Proof/Laws/State.lean ====
section
/-! SUPPORT. The registers after each shared update of State: one lemma per field, true by definition,
so that no later proof unfolds a record update. -/

namespace Sys2Proof.Machine

section setOut
variable (s : State) (i : Nat) (b : Bool)

@[simp] theorem State.setOut_params : (s.setOut i b).params = s.params := rfl
@[simp] theorem State.setOut_tick : (s.setOut i b).tick = s.tick := rfl
@[simp] theorem State.setOut_btnRaw : (s.setOut i b).btnRaw = s.btnRaw := rfl
@[simp] theorem State.setOut_btnPrev : (s.setOut i b).btnPrev = s.btnPrev := rfl
@[simp] theorem State.setOut_btnState : (s.setOut i b).btnState = s.btnState := rfl
@[simp] theorem State.setOut_btnLastChange : (s.setOut i b).btnLastChange = s.btnLastChange := rfl
@[simp] theorem State.setOut_btnLastClick : (s.setOut i b).btnLastClick = s.btnLastClick := rfl
@[simp] theorem State.setOut_clicks : (s.setOut i b).clicks = s.clicks := rfl
@[simp] theorem State.setOut_btnLastPoll : (s.setOut i b).btnLastPoll = s.btnLastPoll := rfl
@[simp] theorem State.setOut_waveActive : (s.setOut i b).waveActive = s.waveActive := rfl
@[simp] theorem State.setOut_wavePhase : (s.setOut i b).wavePhase = s.wavePhase := rfl
@[simp] theorem State.setOut_waveSpeed : (s.setOut i b).waveSpeed = s.waveSpeed := rfl
@[simp] theorem State.setOut_wavePeriod : (s.setOut i b).wavePeriod = s.wavePeriod := rfl
@[simp] theorem State.setOut_waveLastUpdate : (s.setOut i b).waveLastUpdate = s.waveLastUpdate := rfl
@[simp] theorem State.setOut_pwmStep : (s.setOut i b).pwmStep = s.pwmStep := rfl
@[simp] theorem State.setOut_duty : (s.setOut i b).duty = s.duty := rfl
@[simp] theorem State.setOut_seqActive : (s.setOut i b).seqActive = s.seqActive := rfl
@[simp] theorem State.setOut_seqCur : (s.setOut i b).seqCur = s.seqCur := rfl
@[simp] theorem State.setOut_seqStep : (s.setOut i b).seqStep = s.seqStep := rfl
@[simp] theorem State.setOut_seqLastStep : (s.setOut i b).seqLastStep = s.seqLastStep := rfl
@[simp] theorem State.setOut_out : (s.setOut i b).out = if b then s.out ||| channelBit i else s.out &&& ~~~ channelBit i := rfl
@[simp] theorem State.setOut_resp : (s.setOut i b).resp = s.resp := rfl
@[simp] theorem State.setOut_env : (s.setOut i b).env = s.env := rfl
@[simp] theorem State.setOut_draws : (s.setOut i b).draws = s.draws := rfl

end setOut

section forceOff
variable (s : State)

@[simp] theorem State.forceOff_params : (s.forceOff).params = s.params := rfl
@[simp] theorem State.forceOff_tick : (s.forceOff).tick = s.tick := rfl
@[simp] theorem State.forceOff_btnRaw : (s.forceOff).btnRaw = s.btnRaw := rfl
@[simp] theorem State.forceOff_btnPrev : (s.forceOff).btnPrev = s.btnPrev := rfl
@[simp] theorem State.forceOff_btnState : (s.forceOff).btnState = s.btnState := rfl
@[simp] theorem State.forceOff_btnLastChange : (s.forceOff).btnLastChange = s.btnLastChange := rfl
@[simp] theorem State.forceOff_btnLastClick : (s.forceOff).btnLastClick = s.btnLastClick := rfl
@[simp] theorem State.forceOff_clicks : (s.forceOff).clicks = s.clicks := rfl
@[simp] theorem State.forceOff_btnLastPoll : (s.forceOff).btnLastPoll = s.btnLastPoll := rfl
@[simp] theorem State.forceOff_waveActive : (s.forceOff).waveActive = s.waveActive := rfl
@[simp] theorem State.forceOff_wavePhase : (s.forceOff).wavePhase = s.wavePhase := rfl
@[simp] theorem State.forceOff_waveSpeed : (s.forceOff).waveSpeed = s.waveSpeed := rfl
@[simp] theorem State.forceOff_wavePeriod : (s.forceOff).wavePeriod = s.wavePeriod := rfl
@[simp] theorem State.forceOff_waveLastUpdate : (s.forceOff).waveLastUpdate = s.waveLastUpdate := rfl
@[simp] theorem State.forceOff_pwmStep : (s.forceOff).pwmStep = s.pwmStep := rfl
@[simp] theorem State.forceOff_duty : (s.forceOff).duty = s.duty := rfl
@[simp] theorem State.forceOff_seqActive : (s.forceOff).seqActive = s.seqActive := rfl
@[simp] theorem State.forceOff_seqCur : (s.forceOff).seqCur = s.seqCur := rfl
@[simp] theorem State.forceOff_seqStep : (s.forceOff).seqStep = s.seqStep := rfl
@[simp] theorem State.forceOff_seqLastStep : (s.forceOff).seqLastStep = s.seqLastStep := rfl
@[simp] theorem State.forceOff_out : (s.forceOff).out = 0 := rfl
@[simp] theorem State.forceOff_resp : (s.forceOff).resp = s.resp := rfl
@[simp] theorem State.forceOff_env : (s.forceOff).env = s.env := rfl
@[simp] theorem State.forceOff_draws : (s.forceOff).draws = s.draws := rfl

end forceOff

section advanceTick
variable (s : State)

@[simp] theorem advanceTick_params : (advanceTick s).params = s.params := rfl
@[simp] theorem advanceTick_tick : (advanceTick s).tick = s.tick + 1 := rfl
@[simp] theorem advanceTick_btnRaw : (advanceTick s).btnRaw = s.btnRaw := rfl
@[simp] theorem advanceTick_btnPrev : (advanceTick s).btnPrev = s.btnPrev := rfl
@[simp] theorem advanceTick_btnState : (advanceTick s).btnState = s.btnState := rfl
@[simp] theorem advanceTick_btnLastChange : (advanceTick s).btnLastChange = s.btnLastChange := rfl
@[simp] theorem advanceTick_btnLastClick : (advanceTick s).btnLastClick = s.btnLastClick := rfl
@[simp] theorem advanceTick_clicks : (advanceTick s).clicks = s.clicks := rfl
@[simp] theorem advanceTick_btnLastPoll : (advanceTick s).btnLastPoll = s.btnLastPoll := rfl
@[simp] theorem advanceTick_waveActive : (advanceTick s).waveActive = s.waveActive := rfl
@[simp] theorem advanceTick_wavePhase : (advanceTick s).wavePhase = s.wavePhase := rfl
@[simp] theorem advanceTick_waveSpeed : (advanceTick s).waveSpeed = s.waveSpeed := rfl
@[simp] theorem advanceTick_wavePeriod : (advanceTick s).wavePeriod = s.wavePeriod := rfl
@[simp] theorem advanceTick_waveLastUpdate : (advanceTick s).waveLastUpdate = s.waveLastUpdate := rfl
@[simp] theorem advanceTick_pwmStep : (advanceTick s).pwmStep = s.pwmStep := rfl
@[simp] theorem advanceTick_duty : (advanceTick s).duty = s.duty := rfl
@[simp] theorem advanceTick_seqActive : (advanceTick s).seqActive = s.seqActive := rfl
@[simp] theorem advanceTick_seqCur : (advanceTick s).seqCur = s.seqCur := rfl
@[simp] theorem advanceTick_seqStep : (advanceTick s).seqStep = s.seqStep := rfl
@[simp] theorem advanceTick_seqLastStep : (advanceTick s).seqLastStep = s.seqLastStep := rfl
@[simp] theorem advanceTick_out : (advanceTick s).out = s.out := rfl
@[simp] theorem advanceTick_resp : (advanceTick s).resp = s.resp := rfl
@[simp] theorem advanceTick_env : (advanceTick s).env = s.env := rfl
@[simp] theorem advanceTick_draws : (advanceTick s).draws = s.draws := rfl

end advanceTick

section advanceCarrier
variable (s : State)

@[simp] theorem advanceCarrier_params : (advanceCarrier s).params = s.params := rfl
@[simp] theorem advanceCarrier_tick : (advanceCarrier s).tick = s.tick := rfl
@[simp] theorem advanceCarrier_btnRaw : (advanceCarrier s).btnRaw = s.btnRaw := rfl
@[simp] theorem advanceCarrier_btnPrev : (advanceCarrier s).btnPrev = s.btnPrev := rfl
@[simp] theorem advanceCarrier_btnState : (advanceCarrier s).btnState = s.btnState := rfl
@[simp] theorem advanceCarrier_btnLastChange : (advanceCarrier s).btnLastChange = s.btnLastChange := rfl
@[simp] theorem advanceCarrier_btnLastClick : (advanceCarrier s).btnLastClick = s.btnLastClick := rfl
@[simp] theorem advanceCarrier_clicks : (advanceCarrier s).clicks = s.clicks := rfl
@[simp] theorem advanceCarrier_btnLastPoll : (advanceCarrier s).btnLastPoll = s.btnLastPoll := rfl
@[simp] theorem advanceCarrier_waveActive : (advanceCarrier s).waveActive = s.waveActive := rfl
@[simp] theorem advanceCarrier_wavePhase : (advanceCarrier s).wavePhase = s.wavePhase := rfl
@[simp] theorem advanceCarrier_waveSpeed : (advanceCarrier s).waveSpeed = s.waveSpeed := rfl
@[simp] theorem advanceCarrier_wavePeriod : (advanceCarrier s).wavePeriod = s.wavePeriod := rfl
@[simp] theorem advanceCarrier_waveLastUpdate : (advanceCarrier s).waveLastUpdate = s.waveLastUpdate := rfl
@[simp] theorem advanceCarrier_pwmStep : (advanceCarrier s).pwmStep = BitVec.ofNat 7 ((s.pwmStep.toNat + 1) % Config.pwmSteps) := rfl
@[simp] theorem advanceCarrier_duty : (advanceCarrier s).duty = s.duty := rfl
@[simp] theorem advanceCarrier_seqActive : (advanceCarrier s).seqActive = s.seqActive := rfl
@[simp] theorem advanceCarrier_seqCur : (advanceCarrier s).seqCur = s.seqCur := rfl
@[simp] theorem advanceCarrier_seqStep : (advanceCarrier s).seqStep = s.seqStep := rfl
@[simp] theorem advanceCarrier_seqLastStep : (advanceCarrier s).seqLastStep = s.seqLastStep := rfl
@[simp] theorem advanceCarrier_out : (advanceCarrier s).out = s.out := rfl
@[simp] theorem advanceCarrier_resp : (advanceCarrier s).resp = s.resp := rfl
@[simp] theorem advanceCarrier_env : (advanceCarrier s).env = s.env := rfl
@[simp] theorem advanceCarrier_draws : (advanceCarrier s).draws = s.draws := rfl

end advanceCarrier

section updateDuties
variable (s : State)

@[simp] theorem updateDuties_params : (updateDuties s).params = s.params := rfl
@[simp] theorem updateDuties_tick : (updateDuties s).tick = s.tick := rfl
@[simp] theorem updateDuties_btnRaw : (updateDuties s).btnRaw = s.btnRaw := rfl
@[simp] theorem updateDuties_btnPrev : (updateDuties s).btnPrev = s.btnPrev := rfl
@[simp] theorem updateDuties_btnState : (updateDuties s).btnState = s.btnState := rfl
@[simp] theorem updateDuties_btnLastChange : (updateDuties s).btnLastChange = s.btnLastChange := rfl
@[simp] theorem updateDuties_btnLastClick : (updateDuties s).btnLastClick = s.btnLastClick := rfl
@[simp] theorem updateDuties_clicks : (updateDuties s).clicks = s.clicks := rfl
@[simp] theorem updateDuties_btnLastPoll : (updateDuties s).btnLastPoll = s.btnLastPoll := rfl
@[simp] theorem updateDuties_waveActive : (updateDuties s).waveActive = s.waveActive := rfl
@[simp] theorem updateDuties_wavePhase : (updateDuties s).wavePhase = s.wavePhase := rfl
@[simp] theorem updateDuties_waveSpeed : (updateDuties s).waveSpeed = s.waveSpeed := rfl
@[simp] theorem updateDuties_wavePeriod : (updateDuties s).wavePeriod = s.wavePeriod := rfl
@[simp] theorem updateDuties_waveLastUpdate : (updateDuties s).waveLastUpdate = s.waveLastUpdate := rfl
@[simp] theorem updateDuties_pwmStep : (updateDuties s).pwmStep = s.pwmStep := rfl
@[simp] theorem updateDuties_duty : (updateDuties s).duty = (List.range s.params.nCh).map fun i =>
      BitVec.ofNat 7 (dutyFn s.wavePeriod.toNat (channelPosition s i)) := rfl
@[simp] theorem updateDuties_seqActive : (updateDuties s).seqActive = s.seqActive := rfl
@[simp] theorem updateDuties_seqCur : (updateDuties s).seqCur = s.seqCur := rfl
@[simp] theorem updateDuties_seqStep : (updateDuties s).seqStep = s.seqStep := rfl
@[simp] theorem updateDuties_seqLastStep : (updateDuties s).seqLastStep = s.seqLastStep := rfl
@[simp] theorem updateDuties_out : (updateDuties s).out = s.out := rfl
@[simp] theorem updateDuties_resp : (updateDuties s).resp = s.resp := rfl
@[simp] theorem updateDuties_env : (updateDuties s).env = s.env := rfl
@[simp] theorem updateDuties_draws : (updateDuties s).draws = s.draws := rfl

end updateDuties

section accountClick
variable (now : Word) (s : State)

@[simp] theorem accountClick_params : (accountClick now s).params = s.params := rfl
@[simp] theorem accountClick_tick : (accountClick now s).tick = s.tick := rfl
@[simp] theorem accountClick_btnRaw : (accountClick now s).btnRaw = s.btnRaw := rfl
@[simp] theorem accountClick_btnPrev : (accountClick now s).btnPrev = s.btnPrev := rfl
@[simp] theorem accountClick_btnState : (accountClick now s).btnState = s.btnState := rfl
@[simp] theorem accountClick_btnLastChange : (accountClick now s).btnLastChange = s.btnLastChange := rfl
@[simp] theorem accountClick_btnLastClick : (accountClick now s).btnLastClick = now := rfl
@[simp] theorem accountClick_clicks : (accountClick now s).clicks = incClicks s.params.maxClicks (if continuesSeries now s then s.clicks else 0) := rfl
@[simp] theorem accountClick_btnLastPoll : (accountClick now s).btnLastPoll = s.btnLastPoll := rfl
@[simp] theorem accountClick_waveActive : (accountClick now s).waveActive = s.waveActive := rfl
@[simp] theorem accountClick_wavePhase : (accountClick now s).wavePhase = s.wavePhase := rfl
@[simp] theorem accountClick_waveSpeed : (accountClick now s).waveSpeed = s.waveSpeed := rfl
@[simp] theorem accountClick_wavePeriod : (accountClick now s).wavePeriod = s.wavePeriod := rfl
@[simp] theorem accountClick_waveLastUpdate : (accountClick now s).waveLastUpdate = s.waveLastUpdate := rfl
@[simp] theorem accountClick_pwmStep : (accountClick now s).pwmStep = s.pwmStep := rfl
@[simp] theorem accountClick_duty : (accountClick now s).duty = s.duty := rfl
@[simp] theorem accountClick_seqActive : (accountClick now s).seqActive = s.seqActive := rfl
@[simp] theorem accountClick_seqCur : (accountClick now s).seqCur = s.seqCur := rfl
@[simp] theorem accountClick_seqStep : (accountClick now s).seqStep = s.seqStep := rfl
@[simp] theorem accountClick_seqLastStep : (accountClick now s).seqLastStep = s.seqLastStep := rfl
@[simp] theorem accountClick_out : (accountClick now s).out = s.out := rfl
@[simp] theorem accountClick_resp : (accountClick now s).resp = s.resp := rfl
@[simp] theorem accountClick_env : (accountClick now s).env = s.env := rfl
@[simp] theorem accountClick_draws : (accountClick now s).draws = s.draws := rfl

end accountClick

end Sys2Proof.Machine
end

