-- ==== Sys2Proof/Laws/Ops.lean ====
section
/-! SUPPORT. What the shared operations do: one lemma each, to be cited instead of unfolding it. -/

namespace Sys2Proof

@[simp] theorem Params.nCh_pos (p : Params) : 0 < p.nCh := Nat.succ_pos _

theorem Params.nCh_le (p : Params) : p.nCh ≤ 32 := p.topChannel.isLt

namespace Machine

theorem answer_next (v : Word) (s : State) : answer v s = .next { s with resp := v } := rfl

theorem elapsed_self (now : Word) : elapsed now now = 0 := BitVec.sub_self now

theorem elapsed_eq (now start : Word) : elapsed now start = now - start := rfl

/-- The elapsed time as a number (00_scope.md R10). -/
theorem elapsed_toNat (now start : Word) :
    (elapsed now start).toNat = (2 ^ 32 - start.toNat + now.toNat) % 2 ^ 32 := BitVec.toNat_sub now start

/-- A stamp taken n passes ago has age n, as long as n fits a word (00_scope.md R11). -/
theorem elapsed_add_ofNat (start : Word) (n : Nat) :
    elapsed (start + BitVec.ofNat 32 n) start = BitVec.ofNat 32 n := by
  simp [elapsed, BitVec.add_comm start]

theorem channelBit_getLsbD (i j : Nat) (hi : i < 32) :
    (channelBit i).getLsbD j = decide (j = i) := by
  rw [channelBit, BitVec.getLsbD_twoPow]
  by_cases h : i = j
  · simp [h, h ▸ hi]
  · simp [h, Ne.symm h]

/-- `OUT[i] <- b` changes line i and no other. -/
theorem ledOut_setOut (s : State) (i j : Nat) (b : Bool) (hi : i < 32) (hj : j < 32) :
    (s.setOut i b).ledOut j = if j = i then b else s.ledOut j := by
  have hb := channelBit_getLsbD i j hi
  cases b
  · rw [State.ledOut, State.setOut_out, if_neg Bool.false_ne_true, BitVec.getLsbD_and,
      BitVec.getLsbD_not, hb]
    by_cases h : j = i <;> simp [State.ledOut, h, hj]
  · rw [State.ledOut, State.setOut_out, if_pos rfl, BitVec.getLsbD_or, hb]
    by_cases h : j = i <;> simp [State.ledOut, h]

theorem ledOut_forceOff (s : State) (i : Nat) : s.forceOff.ledOut i = false := by
  simp [State.ledOut]

theorem ledOut_eq_of_out_eq {s t : State} (h : t.out = s.out) (i : Nat) : t.ledOut i = s.ledOut i := by
  rw [State.ledOut, State.ledOut, h]

/-- No line exists from 32 up. -/
theorem ledOut_of_le (s : State) (i : Nat) (h : 32 ≤ i) : s.ledOut i = false :=
  BitVec.getLsbD_of_ge _ _ h

/-- Two output words are equal when their 32 lines are. -/
theorem out_eq_of_ledOut {s t : State} (h : ∀ i < 32, t.ledOut i = s.ledOut i) : t.out = s.out :=
  BitVec.eq_of_getLsbD_eq h

/-- A response of `GET_OUTPUTS`: the lines below `N_CH`, and 0 above (44_mode_outputs.md R214). -/
theorem outputs_getLsbD (s : State) (i : Nat) :
    s.outputs.getLsbD i = (decide (i < s.params.nCh) && s.ledOut i) := by
  have hn := s.params.nCh_le
  rw [State.outputs, BitVec.getLsbD_and, BitVec.getLsbD_ofNat, Nat.testBit_two_pow_sub_one,
    State.ledOut, Bool.and_comm]
  by_cases h : i < s.params.nCh
  · simp [h, show i < 32 by omega]
  · simp [h]

/-- A channel operand is a channel (30_encoding.md R82). -/
theorem channelOperand_lt (s : State) (ch : BitVec 16) : channelOperand s ch < s.params.nCh :=
  Nat.mod_lt _ s.params.nCh_pos

theorem channelOperand_lt_32 (s : State) (ch : BitVec 16) : channelOperand s ch < 32 :=
  Nat.lt_of_lt_of_le (channelOperand_lt s ch) s.params.nCh_le

/-- The carrier stays in its cycle and advances by one (42_pwm_wave.md R157). -/
theorem advanceCarrier_toNat (s : State) :
    (advanceCarrier s).pwmStep.toNat = (s.pwmStep.toNat + 1) % 100 := by
  have : (s.pwmStep.toNat + 1) % 100 < 100 := Nat.mod_lt _ (by decide)
  simp only [advanceCarrier_pwmStep, Config.pwmSteps, BitVec.toNat_ofNat]
  omega

theorem mode_pwm_iff (s : State) : s.mode = .pwm ↔ s.waveActive = true := by
  cases hw : s.waveActive <;> cases hq : s.seqActive <;> simp [State.mode, hw, hq]

theorem mode_sequence_iff (s : State) :
    s.mode = .sequence ↔ s.waveActive = false ∧ s.seqActive = true := by
  cases hw : s.waveActive <;> cases hq : s.seqActive <;> simp [State.mode, hw, hq]

theorem mode_static_iff (s : State) :
    s.mode = .static ↔ s.waveActive = false ∧ s.seqActive = false := by
  cases hw : s.waveActive <;> cases hq : s.seqActive <;> simp [State.mode, hw, hq]

end Machine

end Sys2Proof
end

