-- ==== Sys2Proof/Laws/Button.lean ====
section
/-! SUPPORT. The button update: its five cases (a press commit, a click, a release that is no
click, an ignored change, no change) as one equation each, and what it leaves alone. -/

namespace Sys2Proof.Machine

theorem debounceElapsed_iff (now : Word) (s : State) :
    debounceElapsed now s = true ↔ s.params.debounceWindow ≤ elapsed now s.btnLastChange := by
  simp [debounceElapsed]

theorem holdReached_iff (sample : Bool) (now : Word) (s : State) :
    holdReached sample now s = true ↔
      sample = s.params.pressedLevel ∧ (s.btnState = .pressed ∨ s.btnState = .held) ∧
        s.params.holdThreshold < elapsed now s.btnLastChange := by
  simp [holdReached, and_assoc]

theorem incClicks_le (m c : BitVec 8) (h : c.toNat ≤ m.toNat) : (incClicks m c).toNat ≤ m.toNat := by
  rw [incClicks]
  by_cases hc : c = m
  · simp [hc]
  · have hne : c.toNat ≠ m.toNat := fun e => hc (BitVec.eq_of_toNat_eq e)
    have := m.isLt
    rw [if_neg hc, BitVec.toNat_add]
    simp
    omega

/-- The auto reset writes the click count only (41_button.md R127). -/
theorem autoResetClicks_eq (now : Word) (s : State) :
    autoResetClicks now s = { s with clicks :=
      if s.params.clickAutoReset = true ∧ s.params.clickAutoResetWindow < now - s.btnLastClick then 0
      else s.clicks } := by
  rw [autoResetClicks, elapsed_eq]
  split <;> rfl

/-- A commit to the pressed level (41_button.md R123). -/
theorem commit_press {sample : Bool} (now : Word) {s : State} (h : sample = s.params.pressedLevel) :
    commit sample now s =
      { s with btnPrev := sample, btnLastChange := now, btnState := .pressed } := by
  rw [commit]; simp only [h, if_true]; rfl

/-- A commit to the released level from Pressed is a click (41_button.md R124). -/
theorem commit_click {sample : Bool} (now : Word) {s : State} (h : sample ≠ s.params.pressedLevel)
    (hp : s.btnState = .pressed) :
    commit sample now s =
      { s with
        btnPrev := sample, btnLastChange := now, btnState := .released, btnLastClick := now
        clicks := incClicks s.params.maxClicks (if continuesSeries now s then s.clicks else 0) } := by
  rw [commit, commitRelease]; simp only [h, hp, if_true, if_false]; rfl

/-- A commit to the released level from Released or Held counts nothing (41_button.md R124). -/
theorem commit_noClick {sample : Bool} (now : Word) {s : State} (h : sample ≠ s.params.pressedLevel)
    (hp : s.btnState ≠ .pressed) :
    commit sample now s =
      { s with btnPrev := sample, btnLastChange := now, btnState := .released } := by
  rw [commit, commitRelease]; simp only [h, hp, if_false]

/-- An update that sees no change (41_button.md R126). -/
theorem senseLevel_of_same {sample : Bool} {s : State} (now : Word) (h : sample = s.btnPrev) :
    senseLevel sample now s = { s with
      btnRaw := sample
      btnState := if holdReached sample now s then .held else s.btnState } := by
  rw [senseLevel, if_neg (not_not_intro h)]
  cases hh : holdReached sample now { s with btnRaw := sample } with
  | true => rw [if_pos rfl, show holdReached sample now s = true from hh]; rfl
  | false => rw [show holdReached sample now s = false from hh]; rfl

/-- An update that sees a change inside the lockout ignores it (41_button.md R121). -/
theorem senseLevel_of_ignored {sample : Bool} {now : Word} {s : State} (h : sample ≠ s.btnPrev)
    (hd : debounceElapsed now s = false) :
    senseLevel sample now s = { s with btnRaw := sample } := by
  rw [senseLevel, if_pos h, show debounceElapsed now { s with btnRaw := sample } = false from hd]
  rfl

/-- An update that commits (41_button.md R122). -/
theorem senseLevel_of_commit {sample : Bool} {now : Word} {s : State} (h : sample ≠ s.btnPrev)
    (hd : debounceElapsed now s = true) :
    senseLevel sample now s = commit sample now { s with btnRaw := sample } := by
  rw [senseLevel, if_pos h, show debounceElapsed now { s with btnRaw := sample } = true from hd]
  rfl

/-- An update that commits a press (41_button.md R123). -/
theorem senseLevel_of_press {sample : Bool} {now : Word} {s : State} (h : sample ≠ s.btnPrev)
    (hd : debounceElapsed now s = true) (hs : sample = s.params.pressedLevel) :
    senseLevel sample now s =
      { s with
        btnRaw := sample, btnPrev := sample, btnLastChange := now, btnState := .pressed } := by
  rw [senseLevel_of_commit h hd, commit_press (s := { s with btnRaw := sample }) now hs]

/-- An update that commits a click (41_button.md R124). -/
theorem senseLevel_of_click {sample : Bool} {now : Word} {s : State} (h : sample ≠ s.btnPrev)
    (hd : debounceElapsed now s = true) (hs : sample ≠ s.params.pressedLevel)
    (hp : s.btnState = .pressed) :
    senseLevel sample now s =
      { s with
        btnRaw := sample, btnPrev := sample, btnLastChange := now, btnState := .released
        btnLastClick := now
        clicks := incClicks s.params.maxClicks (if continuesSeries now s then s.clicks else 0) } := by
  rw [senseLevel_of_commit h hd, commit_click (s := { s with btnRaw := sample }) now hs hp]
  rfl

/-- An update that commits a release that is no click (41_button.md R124). -/
theorem senseLevel_of_noClick {sample : Bool} {now : Word} {s : State} (h : sample ≠ s.btnPrev)
    (hd : debounceElapsed now s = true) (hs : sample ≠ s.params.pressedLevel)
    (hp : s.btnState ≠ .pressed) :
    senseLevel sample now s =
      { s with
        btnRaw := sample, btnPrev := sample, btnLastChange := now, btnState := .released } := by
  rw [senseLevel_of_commit h hd, commit_noClick (s := { s with btnRaw := sample }) now hs hp]

/-- Which case an update falls in (41_button.md R120). -/
theorem senseLevel_cases (sample : Bool) (now : Word) (s : State) :
    (sample = s.btnPrev ∧ senseLevel sample now s = { s with
      btnRaw := sample
      btnState := if holdReached sample now s then .held else s.btnState }) ∨
    (sample ≠ s.btnPrev ∧ debounceElapsed now s = false ∧
      senseLevel sample now s = { s with btnRaw := sample }) ∨
    (sample ≠ s.btnPrev ∧ debounceElapsed now s = true ∧ sample = s.params.pressedLevel ∧
      senseLevel sample now s = { s with
        btnRaw := sample, btnPrev := sample, btnLastChange := now, btnState := .pressed }) ∨
    (sample ≠ s.btnPrev ∧ debounceElapsed now s = true ∧ sample ≠ s.params.pressedLevel ∧
      s.btnState = .pressed ∧ senseLevel sample now s = { s with
        btnRaw := sample, btnPrev := sample, btnLastChange := now, btnState := .released
        btnLastClick := now
        clicks := incClicks s.params.maxClicks (if continuesSeries now s then s.clicks else 0) }) ∨
    (sample ≠ s.btnPrev ∧ debounceElapsed now s = true ∧ sample ≠ s.params.pressedLevel ∧
      s.btnState ≠ .pressed ∧ senseLevel sample now s = { s with
        btnRaw := sample, btnPrev := sample, btnLastChange := now, btnState := .released }) := by
  by_cases h : sample = s.btnPrev
  · exact Or.inl ⟨h, senseLevel_of_same now h⟩
  · cases hd : debounceElapsed now s with
    | false => exact Or.inr (Or.inl ⟨h, rfl, senseLevel_of_ignored h hd⟩)
    | true =>
      by_cases hs : sample = s.params.pressedLevel
      · exact Or.inr (Or.inr (Or.inl ⟨h, rfl, hs, senseLevel_of_press h hd hs⟩))
      · by_cases hp : s.btnState = .pressed
        · exact Or.inr (Or.inr (Or.inr (Or.inl ⟨h, rfl, hs, hp, senseLevel_of_click h hd hs hp⟩)))
        · exact Or.inr (Or.inr (Or.inr (Or.inr ⟨h, rfl, hs, hp, senseLevel_of_noClick h hd hs hp⟩)))

/-- A button update is that and then the auto reset (41_button.md R120, R127). -/
theorem buttonUpdate_eq (sample : Bool) (now : Word) (s : State) :
    buttonUpdate sample now s = autoResetClicks now (senseLevel sample now s) := rfl

/-- What a button update leaves alone (41_button.md R120). -/
theorem senseLevel_frame (sample : Bool) (now : Word) (s : State) :
    let t := senseLevel sample now s
    t = { s with
      btnRaw := sample, btnPrev := t.btnPrev, btnState := t.btnState
      btnLastChange := t.btnLastChange, btnLastClick := t.btnLastClick, clicks := t.clicks } := by
  rcases senseLevel_cases sample now s with ⟨-, h⟩ | ⟨-, -, h⟩ | ⟨-, -, -, h⟩ | ⟨-, -, -, -, h⟩ |
    ⟨-, -, -, -, h⟩ <;> rw [h]

/-- Every register of a button update is that of the part before the auto reset, but the click count. -/
theorem buttonUpdate_of_senseLevel (sample : Bool) (now : Word) (s : State) :
    let t := senseLevel sample now s
    buttonUpdate sample now s = { t with clicks :=
      if s.params.clickAutoReset = true ∧ s.params.clickAutoResetWindow < now - t.btnLastClick then 0
      else t.clicks } := by
  have hp : (senseLevel sample now s).params = s.params := by rw [senseLevel_frame]
  simp only [buttonUpdate_eq, autoResetClicks_eq, hp]

/-- From a count of 0 an update counts 1 when it makes a click, the one way from Pressed to Released
(41_button.md R124), and leaves 0 when it makes none. -/
theorem buttonUpdate_clicks_of_zero (sample : Bool) (now : Word) {s : State}
    (hl : s.params.maxClicks ≠ 0) (h0 : s.clicks = 0) :
    let t := buttonUpdate sample now s
    t.clicks = if s.btnState = .pressed ∧ t.btnState = .released then 1 else 0 := by
  rw [buttonUpdate_of_senseLevel]
  rcases senseLevel_cases sample now s with
    ⟨-, h⟩ | ⟨-, -, h⟩ | ⟨-, -, -, h⟩ | ⟨-, -, -, hp, h⟩ | ⟨-, -, -, hp, h⟩ <;> rw [h] <;> dsimp only
  · rw [h0, ite_self, if_neg]
    rintro ⟨a, b⟩
    rw [a] at b
    split at b <;> cases b
  · rw [h0, ite_self, if_neg]
    rintro ⟨a, b⟩
    cases a.symm.trans b
  · rw [h0, ite_self, if_neg]
    exact fun h => nomatch h.2
  · rw [if_pos (c := _ ∧ _ = ButtonState.released) ⟨hp, rfl⟩, if_neg (by simp), incClicks, h0, ite_self,
      if_neg hl.symm]
    rfl
  · rw [h0, ite_self, if_neg]
    exact fun h => hp h.1

end Sys2Proof.Machine
end

