-- ==== Sys2Proof/Laws/Decode.lean ====
section
/-! SUPPORT. The fields of an assembled command word, and the well-formedness of what the decoder
answers for a reserved opcode. -/

namespace Sys2Proof

theorem getLsbD_cmdWord (op : Opcode) (arg : Word) (i : Nat) :
    (cmdWord op arg).getLsbD i = if i < 32 then arg.getLsbD i else op.getLsbD (i - 32) :=
  BitVec.getLsbD_append

theorem getLsbD_argCh (ch : BitVec 16) (i : Nat) : (argCh ch).getLsbD i = ch.getLsbD i := by
  by_cases h : i < 32
  · simp [argCh, h]
  · simp [argCh, BitVec.getLsbD_of_ge ch i (by omega), h]

theorem getLsbD_argChv (ch : BitVec 16) (val : Bool) (i : Nat) :
    (argChv ch val).getLsbD i = if i < 16 then ch.getLsbD i else if i = 16 then val else false := by
  have hi : (BitVec.ofBool val ++ ch).getLsbD i =
      if i < 16 then ch.getLsbD i else if i = 16 then val else false := by
    rw [BitVec.getLsbD_append]
    by_cases h : i < 16
    · simp [h]
    · by_cases h2 : i = 16
      · simp [h2]
      · simp [h, h2, show ¬ i - 16 = 0 by omega]
  refine (BitVec.getLsbD_append (x := 0#15) (y := BitVec.ofBool val ++ ch) (i := i)).trans ?_
  by_cases h : i < 17
  · rw [if_pos (by omega), hi]
  · rw [if_neg (by omega), if_neg (by omega), if_neg (by omega)]
    simp

@[simp] theorem cmdOp_cmdWord (op : Opcode) (arg : Word) : cmdOp (cmdWord op arg) = op := by
  apply BitVec.eq_of_getLsbD_eq
  intro i hi
  rw [cmdOp, BitVec.getLsbD_extractLsb', getLsbD_cmdWord]
  simp [hi]

@[simp] theorem cmdArg_cmdWord (op : Opcode) (arg : Word) : cmdArg (cmdWord op arg) = arg := by
  apply BitVec.eq_of_getLsbD_eq
  intro i hi
  rw [cmdArg, BitVec.getLsbD_extractLsb', getLsbD_cmdWord]
  simp [hi]

@[simp] theorem cmdChannel_argCh (op : Opcode) (ch : BitVec 16) :
    cmdChannel (cmdWord op (argCh ch)) = ch := by
  apply BitVec.eq_of_getLsbD_eq
  intro i hi
  rw [cmdChannel, BitVec.getLsbD_extractLsb', getLsbD_cmdWord, if_pos (by omega), getLsbD_argCh]
  simp [hi]

@[simp] theorem cmdChannel_argChv (op : Opcode) (ch : BitVec 16) (val : Bool) :
    cmdChannel (cmdWord op (argChv ch val)) = ch := by
  apply BitVec.eq_of_getLsbD_eq
  intro i hi
  rw [cmdChannel, BitVec.getLsbD_extractLsb', getLsbD_cmdWord, if_pos (by omega), getLsbD_argChv]
  simp [hi]

@[simp] theorem cmdValue_argChv (op : Opcode) (ch : BitVec 16) (val : Bool) :
    cmdValue (cmdWord op (argChv ch val)) = val := by
  rw [cmdValue, getLsbD_cmdWord, if_pos (by omega), getLsbD_argChv]
  simp

/-- A word is its opcode and its operand. -/
theorem cmdWord_cmdOp_cmdArg (w : Cmd) : cmdWord (cmdOp w) (cmdArg w) = w := by
  apply BitVec.eq_of_getLsbD_eq
  intro i hi
  rw [getLsbD_cmdWord, cmdOp, cmdArg, BitVec.getLsbD_extractLsb', BitVec.getLsbD_extractLsb']
  by_cases h : i < 32
  · simp [h]
  · simp [h, show i - 32 < 8 by omega, show 32 + (i - 32) = i by omega]

/-- The reserved rows cover every opcode from 0x13 up (30_encoding.md R85). -/
theorem decodeReserved_wellFormed : ∀ op : Opcode, 0x13 ≤ op.toNat →
    (decodeReserved op).wellFormed = true := by
  decide +kernel

end Sys2Proof
end

