-- ==== Sys2Proof/Laws/DutyFn.lean ====
section
/-! SUPPORT. The duty function: the bound of the swing, and the two halves of the wave. -/

namespace Sys2Proof.Machine

theorem dutyThresholds_length : dutyThresholds.length = 50 := by decide

/-- The swing counts thresholds, of which there are 50 (42_pwm_wave.md R155). -/
theorem dutySwing_le (q den : Nat) : dutySwing q den ≤ 50 :=
  dutyThresholds_length ▸ List.countP_le_length

/-- Every threshold lies strictly between 0 and 1/4. -/
theorem dutyThresholds_range : ∀ t ∈ dutyThresholds, 1 ≤ t.1 ∧ 4 * t.1 < t.2 := by decide +kernel

/-- No threshold is reached at the start of the quarter wave. -/
theorem dutySwing_zero (den : Nat) (h : 1 ≤ den) : dutySwing 0 den = 0 := by
  rw [dutySwing, List.countP_eq_zero]
  intro t ht
  have := Nat.mul_le_mul (dutyThresholds_range t ht).1 h
  simp only [thresholdReached, decide_eq_true_eq, Nat.zero_mul]
  omega

/-- Every threshold is reached at the end of the quarter wave. -/
theorem dutySwing_quarter (q : Nat) : dutySwing q (4 * q) = 50 := by
  rw [dutySwing, ← dutyThresholds_length, List.countP_eq_length]
  intro t ht
  have := Nat.mul_le_mul_left q (dutyThresholds_range t ht).2.le
  simp only [thresholdReached, decide_eq_true_eq]
  calc t.1 * (4 * q) = q * (4 * t.1) := by ring
    _ ≤ q * t.2 := this

/-- The swing grows along the quarter wave. -/
theorem dutySwing_mono {q r : Nat} (den : Nat) (h : q ≤ r) : dutySwing q den ≤ dutySwing r den := by
  apply List.countP_mono_left
  intro t _ ht
  simp only [thresholdReached, decide_eq_true_eq] at ht ⊢
  exact ht.trans (Nat.mul_le_mul_right _ h)

/-- The first half wave lies above 50. -/
theorem dutyFn_first_half {p pos : Nat} (h : 2 * pos < p) :
    dutyFn p pos = 50 + dutySwing (min (2 * pos) (p - 2 * pos)) (2 * p) := if_pos h

/-- The second half wave lies below 50. -/
theorem dutyFn_second_half {p pos : Nat} (h : p ≤ 2 * pos) :
    dutyFn p pos = 50 - dutySwing (min (2 * pos - p) (2 * p - 2 * pos)) (2 * p) :=
  if_neg (Nat.not_lt.mpr h)

/-- A duty is a percentage (42_pwm_wave.md R156 item 1). -/
theorem dutyFn_le_hundred (p pos : Nat) : dutyFn p pos ≤ 100 := by
  have h1 := dutySwing_le (min (2 * pos) (p - 2 * pos)) (2 * p)
  unfold dutyFn
  split <;> omega

/-- A duty fits its 7-bit register (10_state.md R36). -/
theorem dutyFn_lt_128 (p pos : Nat) : dutyFn p pos < 128 :=
  (dutyFn_le_hundred p pos).trans_lt (by decide)

end Sys2Proof.Machine
end

