-- ==== Sys2Proof/Laws/DutyThresholds.lean ====
section
/-! SUPPORT. Why the threshold table of the duty function is right (42_pwm_wave.md R155; log 14): for
every fraction of a 32-bit period, the k-th threshold is reached exactly when 50 times the sine is
above k + 1/2. -/

namespace Sys2Proof.Machine

open Finset in
/-- The first sixteen terms of the sine series at n / d, times `sinDenom d`. -/
def sinNumer (n d : ℕ) : ℤ :=
  ∑ j ∈ range 16, (-1) ^ j *
    ((n ^ (2 * j + 1) * d ^ (30 - 2 * j) * (Nat.factorial 31 / (2 * j + 1).factorial) : ℕ) : ℤ)

/-- The common denominator of those terms. -/
def sinDenom (d : ℕ) : ℕ := d ^ 31 * Nat.factorial 31

open Finset in
/-- The first 2n terms of the exponential series on the imaginary axis. -/
theorem expSeries_mul_I (x : ℝ) (n : ℕ) :
    ∑ m ∈ range (2 * n), (x * Complex.I) ^ m / (m.factorial : ℂ) =
      ((∑ j ∈ range n, (-1) ^ j * x ^ (2 * j) / ((2 * j).factorial : ℝ) : ℝ) : ℂ) +
      ((∑ j ∈ range n, (-1) ^ j * x ^ (2 * j + 1) / ((2 * j + 1).factorial : ℝ) : ℝ) : ℂ) *
        Complex.I := by
  induction n with
  | zero => simp
  | succ n ih =>
    have hI : (x * Complex.I) ^ (2 * n) = (-1) ^ n * (x : ℂ) ^ (2 * n) := by
      rw [mul_pow, pow_mul Complex.I, Complex.I_sq, mul_comm]
    rw [show 2 * (n + 1) = 2 * n + 1 + 1 by ring, sum_range_succ, sum_range_succ, ih, sum_range_succ,
      sum_range_succ, pow_succ (x * Complex.I), hI]
    push_cast
    ring

open Finset in
/-- The series is the sine up to 10^-28, on a range that holds the quarter wave. -/
theorem abs_sin_sub_sinSeries_le (n d : ℕ) (hd : 0 < d) (h : 5 * n ≤ 8 * d) :
    |Real.sin ((n : ℝ) / d) - (sinNumer n d : ℝ) / sinDenom d| ≤ 1 / 10 ^ 28 := by
  have hd' : (0 : ℝ) < d := by exact_mod_cast hd
  have hx0 : (0 : ℝ) ≤ (n : ℝ) / d := by positivity
  have hx : (n : ℝ) / d ≤ 8 / 5 := by
    rw [div_le_div_iff₀ hd' (by norm_num)]
    exact_mod_cast (by omega : n * 5 ≤ 8 * d)
  have hn : ‖(((n : ℝ) / d : ℝ) : ℂ) * Complex.I‖ = (n : ℝ) / d := by
    rw [norm_mul, Complex.norm_I, mul_one, Complex.norm_real, Real.norm_eq_abs, abs_of_nonneg hx0]
  have hb := Complex.exp_bound' (x := (((n : ℝ) / d : ℝ) : ℂ) * Complex.I) (n := 2 * 16)
    (by rw [hn]; norm_num; linarith)
  rw [hn, expSeries_mul_I, Complex.exp_mul_I, ← Complex.ofReal_cos, ← Complex.ofReal_sin] at hb
  have hs : (sinNumer n d : ℝ) / sinDenom d =
      ∑ j ∈ range 16, (-1) ^ j * ((n : ℝ) / d) ^ (2 * j + 1) / ((2 * j + 1).factorial : ℝ) := by
    rw [sinNumer, sinDenom, Int.cast_sum, sum_div]
    refine sum_congr rfl fun j hj => ?_
    have hj := mem_range.mp hj
    obtain ⟨m, hm⟩ : (2 * j + 1).factorial ∣ Nat.factorial 31 := Nat.factorial_dvd_factorial (by omega)
    have h0 : ((2 * j + 1).factorial : ℝ) ≠ 0 := by exact_mod_cast (Nat.factorial_ne_zero _)
    have h1 : (m : ℝ) ≠ 0 := by
      rintro h
      rw [Nat.cast_eq_zero.mp h, mul_zero] at hm
      exact Nat.factorial_ne_zero 31 hm
    have hp : (d : ℝ) ^ 31 = d ^ (30 - 2 * j) * d ^ (2 * j + 1) := by
      rw [← pow_add]; congr 1; omega
    rw [hm, Nat.mul_div_cancel_left _ (Nat.factorial_pos _), div_pow]
    push_cast
    rw [hp]
    field_simp
  have him := (Complex.abs_im_le_norm _).trans hb
  rw [hs]
  simp only [Complex.sub_im, Complex.add_im, Complex.mul_im, Complex.ofReal_im, Complex.ofReal_re,
    Complex.I_re, Complex.I_im, mul_zero, mul_one, zero_add, add_zero] at him
  refine him.trans ((mul_le_mul_of_nonneg_right (div_le_div_of_nonneg_right
    (pow_le_pow_left₀ hx0 hx _) (by positivity)) (by norm_num)).trans ?_)
  norm_num [Nat.factorial]

/-- A lower bound of the sine at n / d, from integers. -/
theorem lt_sin_of_sinNumer {n d a b : ℕ} (hd : 0 < d) (hb : 0 < b) (h : 5 * n ≤ 8 * d)
    (hlt : (a * sinDenom d * 10 ^ 28 + b * sinDenom d : ℤ) < sinNumer n d * b * 10 ^ 28) :
    (a : ℝ) / b < Real.sin ((n : ℝ) / d) := by
  have hD : (0 : ℝ) < sinDenom d := by
    rw [sinDenom]; exact_mod_cast (by positivity)
  have hb' : (0 : ℝ) < b := by exact_mod_cast hb
  have hs := abs_le.mp (abs_sin_sub_sinSeries_le n d hd h)
  have hlt' : (a * sinDenom d * 10 ^ 28 + b * sinDenom d : ℝ) < sinNumer n d * b * 10 ^ 28 := by
    exact_mod_cast hlt
  have : (a : ℝ) / b + 1 / 10 ^ 28 < (sinNumer n d : ℝ) / sinDenom d := by
    rw [div_add_div _ _ hb'.ne' (by positivity), div_lt_div_iff₀ (by positivity) hD]
    linarith
  linarith

/-- An upper bound of the sine at n / d, from integers. -/
theorem sin_lt_of_sinNumer {n d a b : ℕ} (hd : 0 < d) (hb : 0 < b) (h : 5 * n ≤ 8 * d)
    (hlt : (sinNumer n d * b * 10 ^ 28 + b * sinDenom d : ℤ) < a * sinDenom d * 10 ^ 28) :
    Real.sin ((n : ℝ) / d) < (a : ℝ) / b := by
  have hD : (0 : ℝ) < sinDenom d := by
    rw [sinDenom]; exact_mod_cast (by positivity)
  have hb' : (0 : ℝ) < b := by exact_mod_cast hb
  have hs := abs_le.mp (abs_sin_sub_sinSeries_le n d hd h)
  have hlt' : (sinNumer n d * b * 10 ^ 28 + b * sinDenom d : ℝ) < a * sinDenom d * 10 ^ 28 := by
    exact_mod_cast hlt
  have : (sinNumer n d : ℝ) / sinDenom d + 1 / 10 ^ 28 < (a : ℝ) / b := by
    rw [div_add_div _ _ hD.ne' (by positivity), div_lt_div_iff₀ (by positivity) hb']
    linarith
  linarith

/-- π lies between these two multiples of 10^-26: the sine of a sixth of them lies on either side of
the sine of π / 6. -/
theorem pi_mem_bounds :
    (314159265358979323846264338 : ℝ) / 10 ^ 26 < Real.pi ∧
    Real.pi < (314159265358979323846264339 : ℝ) / 10 ^ 26 := by
  have hl := sin_lt_of_sinNumer (n := 314159265358979323846264338) (d := 6 * 10 ^ 26) (a := 1) (b := 2)
    (by decide) (by decide) (by decide) (by decide +kernel)
  have hu := lt_sin_of_sinNumer (n := 314159265358979323846264339) (d := 6 * 10 ^ 26) (a := 1) (b := 2)
    (by decide) (by decide) (by decide) (by decide +kernel)
  have h6 := Real.sin_pi_div_six
  have g3 := Real.pi_gt_three
  push_cast at hl hu
  constructor
  · by_contra hc
    have := Real.sin_le_sin_of_le_of_le_pi_div_two (x := Real.pi / 6)
      (y := 314159265358979323846264338 / (6 * 10 ^ 26)) (by linarith) (by linarith) (by linarith)
    linarith
  · by_contra hc
    have := Real.sin_le_sin_of_le_of_le_pi_div_two (x := 314159265358979323846264339 / (6 * 10 ^ 26))
      (y := Real.pi / 6) (by linarith) (by linarith) (by linarith)
    linarith

/-- The k-th entry is the greatest fraction below the k-th threshold with a denominator of at most
2^33 - 2: the left neighbour of the k-th entry of `dutyThresholds`. -/
def dutyThresholdsBelow : List (Nat × Nat) :=
  [(5318507, 3341660807),
   (18341743, 3840909301),
   (29294897, 3679770363),
   (14835661, 1330556793),
   (13136452, 915856423),
   (142714079, 8135312935),
   (139410059, 6718923753),
   (45420343, 1895382251),
   (75229487, 2766971392),
   (173211214, 5693167683)] ++
  [(25575577, 759523196),
   (55166092, 1493546361),
   (341825077, 8499873883),
   (80406416, 1847919857),
   (341067428, 7283461525),
   (354998539, 7076684364),
   (232020847, 4334863155),
   (199660631, 3508406385),
   (233136577, 3864922034),
   (182151216, 2856713911)] ++
  [(409306747, 6087644478),
   (438930286, 6204555995),
   (614003429, 8265175241),
   (327873579, 4210360274),
   (148056481, 1816607930),
   (221653576, 2602260971),
   (143138233, 1610030670),
   (518758819, 5596940158),
   (670636669, 6947557767),
   (387254930, 3855733141)] ++
  [(871611947, 8347551209),
   (77425585, 713780362),
   (586132939, 5204724241),
   (561994380, 4809415103),
   (996620521, 8223298013),
   (819216741, 6519698879),
   (124381487, 955017681),
   (868459667, 6434308472),
   (1034543126, 7396360715),
   (1162447301, 8019103701)] ++
  [(920717229, 6127229789),
   (300886647, 1930866839),
   (640000122, 3957970049),
   (102637278, 611152027),
   (1361160327, 7793739659),
   (813725695, 4472020123),
   (1213566182, 6383941063),
   (437498414, 2193428717),
   (1634057689, 7747395541),
   (694104343, 3051366309)]

/-- What the two tables have to satisfy, for the k-th threshold (k from 0): neighbours of denominators
at most 2^33 - 2, on either side of the sine (2k + 1) / 100. -/
def dutyThresholdOk (k : ℕ) : Prop :=
  let below := dutyThresholdsBelow.getD k (0, 1)
  let above := dutyThresholds.getD k (1, 1)
  let nBelow := 2 * 314159265358979323846264339 * below.1
  let nAbove := 2 * 314159265358979323846264338 * above.1
  let dBelow := below.2 * 10 ^ 26
  let dAbove := above.2 * 10 ^ 26
  0 < below.2 ∧ 0 < above.2 ∧ above.1 * below.2 = below.1 * above.2 + 1 ∧
  2 ^ 33 - 2 < below.2 + above.2 ∧ 5 * nBelow ≤ 8 * dBelow ∧ 5 * nAbove ≤ 8 * dAbove ∧
  4 * 314159265358979323846264339 * below.1 ≤ 314159265358979323846264338 * below.2 ∧
  (sinNumer nBelow dBelow * 100 * 10 ^ 28 + 100 * sinDenom dBelow : ℤ) <
    (2 * k + 1 : ℕ) * sinDenom dBelow * 10 ^ 28 ∧
  ((2 * k + 1 : ℕ) * sinDenom dAbove * 10 ^ 28 + 100 * sinDenom dAbove : ℤ) <
    sinNumer nAbove dAbove * 100 * 10 ^ 28

theorem dutyThresholdOk_of_lt : ∀ k < 50, dutyThresholdOk k := by
  unfold dutyThresholdOk
  decide +kernel

/-- A fraction with a denominator of at most 2^33 - 2 that lies below the upper of two neighbours is not
above the lower one. -/
theorem le_below_of_lt_above {a b c d q den : ℕ} (h : c * b = a * d + 1) (hn : 2 ^ 33 - 2 < b + d)
    (hden : den ≤ 2 ^ 33 - 2) (hlt : q * d < c * den) : q * b ≤ a * den := by
  by_contra hc
  have h1 : a * den + 1 ≤ q * b := by omega
  have h2 : q * d + 1 ≤ c * den := by omega
  have := Nat.mul_le_mul_left d h1
  have := Nat.mul_le_mul_left b h2
  have e : b * (c * den) = d * (a * den) + den := by
    calc b * (c * den) = (c * b) * den := by ring
      _ = d * (a * den) + den := by rw [h]; ring
  have e2 : d * (q * b) = b * (q * d) := by ring
  have e3 : d * (a * den + 1) = d * (a * den) + d := by ring
  have e4 : b * (q * d + 1) = b * (q * d) + b := by ring
  omega

/-- The k-th threshold (k from 0) is reached exactly when the sine exceeds (2k + 1) / 100, and the
sine never equals that. -/
theorem thresholdReached_iff_sin (k : ℕ) (hk : k < 50) (q den : ℕ) (h0 : 0 < den)
    (hden : den ≤ 2 ^ 33 - 2) (hq : 4 * q ≤ den) :
    (thresholdReached q den (dutyThresholds.getD k (1, 1)) = true →
      ((2 * k + 1 : ℕ) : ℝ) / 100 < Real.sin (2 * Real.pi * q / den)) ∧
    (thresholdReached q den (dutyThresholds.getD k (1, 1)) = false →
      Real.sin (2 * Real.pi * q / den) < ((2 * k + 1 : ℕ) : ℝ) / 100) := by
  obtain ⟨hb, hd, hcb, hn, r1, r2, hlast, hs1, hs2⟩ := dutyThresholdOk_of_lt k hk
  generalize dutyThresholdsBelow.getD k (0, 1) = below at *
  generalize dutyThresholds.getD k (1, 1) = above at *
  obtain ⟨a, b⟩ := below
  obtain ⟨c, d⟩ := above
  dsimp only at *
  have pl := pi_mem_bounds.1
  have pu := pi_mem_bounds.2
  have p0 := Real.pi_pos
  have h0' : (0 : ℝ) < den := by exact_mod_cast h0
  have hb' : (0 : ℝ) < b := by exact_mod_cast hb
  have hd' : (0 : ℝ) < d := by exact_mod_cast hd
  have hq' : (q : ℝ) / den ≤ 1 / 4 := by
    rw [div_le_div_iff₀ h0' (by norm_num)]; exact_mod_cast (by omega : q * 4 ≤ 1 * den)
  have hq0 : (0 : ℝ) ≤ (q : ℝ) / den := by positivity
  have hx : 2 * Real.pi * q / den = 2 * Real.pi * (q / den) := by ring
  have hx1 : 2 * Real.pi * (q / den) ≤ Real.pi / 2 := by nlinarith
  have hx0 : 0 ≤ 2 * Real.pi * ((q : ℝ) / den) := by positivity
  rw [hx]
  constructor
  · intro h
    have hle : (c : ℝ) / d ≤ q / den := by
      rw [div_le_div_iff₀ hd' h0']
      exact_mod_cast (of_decide_eq_true h)
    have hsin := lt_sin_of_sinNumer (by positivity) (by norm_num) r2 hs2
    have e : ((2 * 314159265358979323846264338 * c : ℕ) : ℝ) / (d * 10 ^ 26 : ℕ) =
        2 * (314159265358979323846264338 / 10 ^ 26) * (c / d) := by push_cast; ring
    have hc0 : (0 : ℝ) ≤ (c : ℝ) / d := by positivity
    have hle2 : 2 * (314159265358979323846264338 / 10 ^ 26) * ((c : ℝ) / d) ≤
        2 * Real.pi * (q / den) := by gcongr
    rw [e] at hsin
    refine hsin.trans_le (Real.sin_le_sin_of_le_of_le_pi_div_two ?_ hx1 hle2)
    exact le_trans (by linarith) (show (0 : ℝ) ≤ _ by positivity)
  · intro h
    have hlt : q * d < c * den := Nat.lt_of_not_le (of_decide_eq_false h)
    have hle : (q : ℝ) / den ≤ a / b := by
      rw [div_le_div_iff₀ h0' hb']
      exact_mod_cast le_below_of_lt_above hcb hn hden hlt
    have hsin := sin_lt_of_sinNumer (by positivity) (by norm_num) r1 hs1
    have e : ((2 * 314159265358979323846264339 * a : ℕ) : ℝ) / (b * 10 ^ 26 : ℕ) =
        2 * (314159265358979323846264339 / 10 ^ 26) * (a / b) := by push_cast; ring
    have ha0 : (0 : ℝ) ≤ (a : ℝ) / b := by positivity
    have hle2 : 2 * Real.pi * ((q : ℝ) / den) ≤
        2 * (314159265358979323846264339 / 10 ^ 26) * (a / b) := by gcongr
    have hlast' : 4 * 314159265358979323846264339 * ((a : ℝ) / b) ≤ 314159265358979323846264338 := by
      rw [mul_div_assoc', div_le_iff₀ hb']
      exact_mod_cast hlast
    rw [e] at hsin
    refine lt_of_le_of_lt (Real.sin_le_sin_of_le_of_le_pi_div_two (by linarith) ?_ hle2) hsin
    linarith

/-- Where the elements that satisfy a predicate come first, they are as many as the predicate counts. -/
theorem lt_countP_iff {α : Type} (p : α → Bool) (e : α) (l : List α)
    (h : ∀ j k, j ≤ k → k < l.length → p (l.getD k e) = true → p (l.getD j e) = true) :
    ∀ k < l.length, p (l.getD k e) = true ↔ k < l.countP p := by
  induction l with
  | nil => intro k hk; cases hk
  | cons x l ih =>
    have ih := ih fun j k hjk hk hp => h (j + 1) (k + 1) (by omega) (Nat.succ_lt_succ hk) hp
    cases hx : p x with
    | true =>
      rw [List.countP_cons_of_pos hx]
      intro k hk
      cases k with
      | zero => simpa using hx
      | succ k => exact (ih k (Nat.lt_of_succ_lt_succ hk)).trans (by omega)
    | false =>
      have hall : ∀ k < (x :: l).length, ¬ p ((x :: l).getD k e) = true := fun k hk hp => by
        have := h 0 k (Nat.zero_le k) hk hp
        exact absurd this (by simpa using hx)
      have h0 : l.countP p = 0 := by
        rw [List.countP_eq_zero]
        intro y hy hp
        obtain ⟨k, hk, rfl⟩ := List.getElem_of_mem hy
        refine hall (k + 1) (Nat.succ_lt_succ hk) ?_
        rw [List.getD_cons_succ, List.getD_eq_getElem _ _ hk]
        exact hp
      rw [List.countP_cons_of_neg (by simp [hx]), h0]
      exact fun k hk => ⟨fun hp => absurd hp (hall k hk), fun hk => absurd hk (Nat.not_lt_zero k)⟩

/-- The swing is 50 times the sine, rounded to the nearest integer, which is unique
(42_pwm_wave.md R155). -/
theorem dutySwing_nearest (q den : ℕ) (h0 : 0 < den) (hden : den ≤ 2 ^ 33 - 2) (hq : 4 * q ≤ den) :
    |50 * Real.sin (2 * Real.pi * q / den) - (dutySwing q den : ℝ)| < 1 / 2 := by
  have hspec := fun k hk => thresholdReached_iff_sin k hk q den h0 hden hq
  have hcount := lt_countP_iff (thresholdReached q den) (1, 1) dutyThresholds fun j k hjk hk hp => by
    rw [dutyThresholds_length] at hk
    by_contra hc
    have h1 := (hspec k hk).1 hp
    have h2 := (hspec j (by omega)).2 (Bool.eq_false_iff.mpr hc)
    have : ((2 * j + 1 : ℕ) : ℝ) ≤ ((2 * k + 1 : ℕ) : ℝ) := by exact_mod_cast (by omega)
    linarith
  rw [dutyThresholds_length] at hcount
  change ∀ k < 50, thresholdReached q den (dutyThresholds.getD k (1, 1)) = true ↔
    k < dutySwing q den at hcount
  have hm := dutySwing_le q den
  generalize dutySwing q den = m at hcount hm ⊢
  rw [abs_lt]
  constructor
  · rcases Nat.eq_zero_or_pos m with rfl | hm0
    · have h5 : 0 ≤ Real.sin (2 * Real.pi * q / den) := by
        apply Real.sin_nonneg_of_nonneg_of_le_pi (by positivity)
        rw [div_le_iff₀ (by exact_mod_cast h0)]
        have : (4 : ℝ) * q ≤ den := by exact_mod_cast hq
        nlinarith [Real.pi_pos]
      push_cast
      linarith
    · have h1 := (hspec (m - 1) (by omega)).1 ((hcount (m - 1) (by omega)).mpr (by omega))
      have h2 : ((2 * (m - 1) + 1 : ℕ) : ℝ) = 2 * (m : ℝ) - 1 := by
        rw [show 2 * (m - 1) + 1 = 2 * m - 1 by omega, Nat.cast_sub (by omega)]
        push_cast
        ring
      rw [h2] at h1
      linarith
  · by_cases hm50 : m < 50
    · have h1 := (hspec m hm50).2
        (Bool.eq_false_iff.mpr fun h => absurd ((hcount m hm50).mp h) (Nat.lt_irrefl m))
      push_cast at h1
      linarith
    · have h1 := Real.sin_le_one (2 * Real.pi * q / den)
      have : (50 : ℝ) ≤ m := by exact_mod_cast (by omega)
      linarith

end Sys2Proof.Machine
end

