-- ==== Sys2Proof/Laws/PerInstr.lean ====
section
/-! SUPPORT. Statements made per command. The family `EncodesInRow`: an assembled word lies in its
command's row of spec/opcode_table.json, and sets no bit its form ignores (30_encoding.md R82, R84). -/

namespace Sys2Proof.Laws.EncodesInRow

/-- The word of a well-formed command matches its row, and its ignored bits are 0. -/
def Statement (i : Instr) : Prop :=
  i.wellFormed = true → encode i &&& i.rowMask = i.rowMatch ∧ encode i &&& i.usedBits = encode i

/-- Masking an assembled word masks its opcode and its operand. -/
theorem cmdWord_and (op m : Opcode) (arg n : Word) :
    cmdWord op arg &&& cmdWord m n = cmdWord (op &&& m) (arg &&& n) := by
  apply BitVec.eq_of_getLsbD_eq
  intro i hi
  rw [BitVec.getLsbD_and, getLsbD_cmdWord, getLsbD_cmdWord, getLsbD_cmdWord]
  by_cases h : i < 32 <;> simp [h]

/-- The operand of the form `U32` uses every bit. -/
theorem u32_row (op : Opcode) (v : Word) :
    cmdWord op v &&& 0xFF00000000 = cmdWord op 0 ∧ cmdWord op v &&& 0xFFFFFFFFFF = cmdWord op v := by
  have h1 : (0xFF00000000 : Cmd) = cmdWord 0xFF 0 := by decide
  have h2 : (0xFFFFFFFFFF : Cmd) = cmdWord (BitVec.allOnes 8) (BitVec.allOnes 32) := by decide
  have h3 : (0xFF : Opcode) = BitVec.allOnes 8 := by decide
  rw [h1, h2, cmdWord_and, cmdWord_and, h3, BitVec.and_allOnes, BitVec.and_allOnes]
  exact ⟨congrArg _ BitVec.and_zero, rfl⟩

theorem argCh_masked (ch : BitVec 16) : argCh ch &&& 0x0000FFFF = argCh ch := by
  apply BitVec.eq_of_getLsbD_eq
  intro i hi
  have hm : (0x0000FFFF : Word) = BitVec.ofNat 32 (2 ^ 16 - 1) := by decide
  rw [BitVec.getLsbD_and, getLsbD_argCh, hm, BitVec.getLsbD_ofNat, Nat.testBit_two_pow_sub_one]
  by_cases h : i < 16
  · simp [h, hi]
  · simp [BitVec.getLsbD_of_ge ch i (by omega)]

theorem argChv_masked (ch : BitVec 16) (val : Bool) : argChv ch val &&& 0x0001FFFF = argChv ch val := by
  apply BitVec.eq_of_getLsbD_eq
  intro i hi
  have hm : (0x0001FFFF : Word) = BitVec.ofNat 32 (2 ^ 17 - 1) := by decide
  rw [BitVec.getLsbD_and, getLsbD_argChv, hm, BitVec.getLsbD_ofNat, Nat.testBit_two_pow_sub_one]
  by_cases h : i < 17
  · simp [h, hi]
  · simp [show ¬ i < 16 by omega, show ¬ i = 16 by omega]

/-- A reserved command's row tests its opcode alone. -/
theorem reserved_row {op mask value : Opcode} (h : op.inRow mask value = true) :
    cmdWord op 0 &&& cmdWord mask 0 = cmdWord value 0 ∧
      cmdWord op 0 &&& cmdWord 0xFF 0 = cmdWord op 0 := by
  have hm : op &&& mask = value := by simpa [Opcode.inRow] using h
  have h3 : (0xFF : Opcode) = BitVec.allOnes 8 := by decide
  rw [cmdWord_and, cmdWord_and, hm, h3, BitVec.and_allOnes]
  exact ⟨rfl, rfl⟩

theorem nop : Statement .nop := fun _ => by decide
theorem getTick : Statement .getTick := fun _ => by decide
theorem setMode (v : Word) : Statement (.setMode v) := fun _ => u32_row 0x02 v
theorem getMode : Statement .getMode := fun _ => by decide
theorem startWave : Statement .startWave := fun _ => by decide
theorem stopWave : Statement .stopWave := fun _ => by decide
theorem setWaveSpeed (v : Word) : Statement (.setWaveSpeed v) := fun _ => u32_row 0x06 v
theorem setWavePeriod (v : Word) : Statement (.setWavePeriod v) := fun _ => u32_row 0x07 v
theorem getWaveActive : Statement .getWaveActive := fun _ => by decide
theorem startSequence (v : Word) : Statement (.startSequence v) := fun _ => u32_row 0x09 v
theorem stopSequence : Statement .stopSequence := fun _ => by decide
theorem getSeqActive : Statement .getSeqActive := fun _ => by decide
theorem getButtonState : Statement .getButtonState := fun _ => by decide
theorem getClickCount : Statement .getClickCount := fun _ => by decide
theorem resetClickCount : Statement .resetClickCount := fun _ => by decide

theorem ledWrite (ch : BitVec 16) (val : Bool) : Statement (.ledWrite ch val) := fun _ => by
  have hm : (0xFF0001FFFF : Cmd) = cmdWord 0xFF 0x0001FFFF := by decide
  have ho : (0x0F : Opcode) &&& 0xFF = 0x0F := by decide
  refine ⟨(u32_row 0x0F (argChv ch val)).1, ?_⟩
  rw [encode, Instr.usedBits, hm, cmdWord_and, argChv_masked, ho]

theorem getOutputs : Statement .getOutputs := fun _ => by decide
theorem getPhase : Statement .getPhase := fun _ => by decide

theorem getDuty (ch : BitVec 16) : Statement (.getDuty ch) := fun _ => by
  have hm : (0xFF0000FFFF : Cmd) = cmdWord 0xFF 0x0000FFFF := by decide
  have ho : (0x12 : Opcode) &&& 0xFF = 0x12 := by decide
  refine ⟨(u32_row 0x12 (argCh ch)).1, ?_⟩
  rw [encode, Instr.usedBits, hm, cmdWord_and, argCh_masked, ho]

theorem reserved13 : Statement .reserved13 := fun _ => by decide
theorem reserved14 (op : Opcode) : Statement (.reserved14 op) := fun h =>
  reserved_row (mask := 0xFC) (value := 0x14) h
theorem reserved18 (op : Opcode) : Statement (.reserved18 op) := fun h =>
  reserved_row (mask := 0xF8) (value := 0x18) h
theorem reserved20 (op : Opcode) : Statement (.reserved20 op) := fun h =>
  reserved_row (mask := 0xE0) (value := 0x20) h
theorem reserved40 (op : Opcode) : Statement (.reserved40 op) := fun h =>
  reserved_row (mask := 0xC0) (value := 0x40) h
theorem reserved80 (op : Opcode) : Statement (.reserved80 op) := fun h =>
  reserved_row (mask := 0x80) (value := 0x80) h

end Sys2Proof.Laws.EncodesInRow
end

