-- ==== Sys2Proof/Laws/Sequencer.lean ====
section
/-! SUPPORT. The sequencer update and the sequence commands as one equation each. -/

namespace Sys2Proof.Machine

theorem seqStepDue_iff (now : Word) (s : State) :
    seqStepDue now s = true ↔ s.seqStep ≤ elapsed now s.seqLastStep := by simp [seqStepDue]

/-- The next channel of the chase is a channel (43_sequencer.md R190). -/
theorem nextChannel_toNat (s : State) :
    (nextChannel s).toNat = (s.seqCur.toNat + 1) % s.params.nCh := by
  have := Nat.mod_lt (s.seqCur.toNat + 1) s.params.nCh_pos
  have := s.params.nCh_le
  rw [nextChannel, BitVec.toNat_ofNat]
  omega

/-- Before its step is due the sequencer does nothing (43_sequencer.md R190). -/
theorem seqUpdate_of_not_due {now : Word} {s : State} (h : seqStepDue now s = false) :
    seqUpdate now s = s := by rw [seqUpdate, h]; rfl

/-- The chase step (43_sequencer.md R190). -/
theorem seqUpdate_of_due {now : Word} {s : State} (h : seqStepDue now s = true) :
    seqUpdate now s =
      { s with
        seqCur := nextChannel s, seqLastStep := now
        out := ((s.setOut s.seqCur.toNat false).setOut (nextChannel s).toNat true).out } := by
  rw [seqUpdate, if_pos h]; rfl

/-- What a sequencer update leaves alone (43_sequencer.md R190). -/
theorem seqUpdate_frame (now : Word) (s : State) :
    let t := seqUpdate now s
    t = { s with seqCur := t.seqCur, seqLastStep := t.seqLastStep, out := t.out } := by
  cases h : seqStepDue now s with
  | true => rw [seqUpdate_of_due h]
  | false => rw [seqUpdate_of_not_due h]

theorem startSequence_eq (v : Word) (s : State) :
    startSequence v s = { s with
      waveActive := false, seqStep := v, out := 1, seqCur := 0, seqLastStep := s.tick
      seqActive := true } := by
  have h : (0 : Word) ||| channelBit 0 = 1 := by decide
  rw [← h]
  rfl

theorem stopSequence_of_active {s : State} (h : s.seqActive = true) :
    stopSequence s = { s with seqActive := false, out := 0 } := by rw [stopSequence, if_pos h]; rfl

theorem stopSequence_of_inactive {s : State} (h : s.seqActive = false) : stopSequence s = s := by
  rw [stopSequence, h]; rfl

end Sys2Proof.Machine
end

