-- ==== Sys2Proof/Laws/Wave.lean ====
section
/-! SUPPORT. The wave update: when it runs, the output loop of each carrier mode as one equation per
line, and what the update leaves alone. -/

namespace Sys2Proof.Machine

theorem waveUpdateSkipped_iff (now : Word) (s : State) :
    waveUpdateSkipped now s = true ↔
      s.wavePeriod = 0 ∨ elapsed now s.waveLastUpdate < s.params.waveMinUpdateInterval := by
  simp [waveUpdateSkipped]

/-- A skipped update changes nothing (42_pwm_wave.md R151, R152). -/
theorem waveUpdate_of_skipped {now : Word} {s : State} (h : waveUpdateSkipped now s = true) :
    waveUpdate now s = s := if_pos h

/-- An update that runs (42_pwm_wave.md R150). -/
theorem waveUpdate_of_runs {now : Word} {s : State} (h : waveUpdateSkipped now s = false) :
    waveUpdate now s =
      driveOutputs (updateDuties { s with waveLastUpdate := now, wavePhase := nextPhase s }) := by
  rw [waveUpdate, h]
  rfl

/-- An update runs when the period is not 0 and the minimum interval has passed. -/
theorem waveUpdateSkipped_eq_false {now : Word} {s : State} (hp : s.wavePeriod ≠ 0)
    (hi : s.params.waveMinUpdateInterval ≤ elapsed now s.waveLastUpdate) :
    waveUpdateSkipped now s = false := by
  rw [Bool.eq_false_iff, Ne, waveUpdateSkipped_iff]
  rintro (h | h)
  · exact hp h
  · exact absurd hi (BitVec.not_le.mpr h)

theorem wavePeriod_toNat_pos {s : State} (hp : s.wavePeriod ≠ 0) : 0 < s.wavePeriod.toNat :=
  Nat.pos_of_ne_zero fun h => hp (BitVec.eq_of_toNat_eq h)

/-- The phase accumulator, the sum exact (42_pwm_wave.md R153). -/
theorem nextPhase_toNat {s : State} (hp : s.wavePeriod ≠ 0) :
    (nextPhase s).toNat = (s.wavePhase.toNat + s.waveSpeed.toNat) % s.wavePeriod.toNat :=
  Nat.mod_eq_of_lt ((Nat.mod_lt _ (wavePeriod_toNat_pos hp)).trans s.wavePeriod.isLt)

/-- Each channel's duty after the lookup (42_pwm_wave.md R155). -/
theorem dutyAt_updateDuties (s : State) (i : Nat) (hi : i < s.params.nCh) :
    ((updateDuties s).dutyAt i).toNat = dutyFn s.wavePeriod.toNat (channelPosition s i) := by
  have h := dutyFn_lt_128 s.wavePeriod.toNat (channelPosition s i)
  simp [State.dutyAt, List.getD_eq_getElem?_getD, List.getElem?_range hi, Nat.mod_eq_of_lt h]

theorem length_updateDuties (s : State) : (updateDuties s).duty.length = s.params.nCh := by simp

/-- The comparison of one channel writes its line only. -/
theorem compareChannel_eq (s : State) (i : Nat) :
    compareChannel s i = { s with out := (compareChannel s i).out } := rfl

/-- The output loop with one carrier value (42_pwm_wave.md R157): line j of the channels compared. -/
theorem foldl_compareChannel (l : List Nat) (s : State) (hl : ∀ i ∈ l, i < 32) :
    l.foldl compareChannel s = { s with out := (l.foldl compareChannel s).out } ∧
    ∀ j < 32, (l.foldl compareChannel s).ledOut j =
      if j ∈ l then decide (s.pwmStep < s.dutyAt j) else s.ledOut j := by
  induction l generalizing s with
  | nil => exact ⟨rfl, fun j _ => rfl⟩
  | cons i l ih =>
    obtain ⟨h1, h2⟩ := ih (compareChannel s i) fun j hj => hl j (List.mem_cons_of_mem i hj)
    refine ⟨h1.trans rfl, fun j hj => (h2 j hj).trans ?_⟩
    have hc := ledOut_setOut s i j (decide (s.pwmStep < s.dutyAt i)) (hl i List.mem_cons_self) hj
    by_cases hjl : j ∈ l
    · rw [if_pos hjl, if_pos (List.mem_cons_of_mem i hjl)]
      rfl
    · rw [if_neg hjl, compareChannel, hc]
      by_cases hji : j = i
      · subst hji
        rw [if_pos rfl, if_pos List.mem_cons_self]
      · rw [if_neg hji, if_neg (List.not_mem_cons_of_ne_of_not_mem hji hjl)]

/-- The comparison of one channel followed by an advance of the carrier (42_pwm_wave.md R158). -/
theorem foldl_perChannel (s : State) (hs : s.pwmStep.toNat < 100) (n : Nat) (hn : n ≤ 32) :
    let t := (List.range n).foldl (fun s i => advanceCarrier (compareChannel s i)) s
    t = { s with out := t.out, pwmStep := t.pwmStep } ∧
    t.pwmStep.toNat = (s.pwmStep.toNat + n) % 100 ∧
    ∀ j < 32, t.ledOut j =
      if j < n then decide ((s.pwmStep.toNat + j) % 100 < (s.dutyAt j).toNat) else s.ledOut j := by
  induction n with
  | zero => exact ⟨rfl, (Nat.mod_eq_of_lt hs).symm, fun j _ => rfl⟩
  | succ n ih =>
    obtain ⟨h1, h2, h3⟩ := ih (by omega)
    simp only [List.range_succ, List.foldl_append, List.foldl_cons, List.foldl_nil]
    generalize (List.range n).foldl (fun s i => advanceCarrier (compareChannel s i)) s = t at h1 h2 h3 ⊢
    have hd : t.dutyAt n = s.dutyAt n := by rw [h1]; rfl
    refine ⟨?_, ?_, fun j hj => ?_⟩
    · rw [h1]; rfl
    · rw [advanceCarrier_toNat]
      show (t.pwmStep.toNat + 1) % 100 = _
      omega
    · have hc := ledOut_setOut t n j (decide (t.pwmStep < t.dutyAt n)) (by omega) hj
      show (t.setOut n (decide (t.pwmStep < t.dutyAt n))).ledOut j = _
      rw [hc, h3 j hj, hd]
      by_cases hjn : j = n
      · subst hjn
        simp only [if_pos (Nat.lt_succ_self j), BitVec.lt_def, h2, if_true]
      · rw [if_neg hjn]
        by_cases hlt : j < n
        · rw [if_pos hlt, if_pos (by omega)]
        · rw [if_neg hlt, if_neg (by omega)]

/-- Every carrier mode writes the outputs and the carrier only, and only lines below `N_CH`. -/
theorem foldl_perChannel_frame (s : State) (n : Nat) (hn : n ≤ 32) :
    let t := (List.range n).foldl (fun s i => advanceCarrier (compareChannel s i)) s
    t = { s with out := t.out, pwmStep := t.pwmStep } ∧ ∀ j, n ≤ j → t.ledOut j = s.ledOut j := by
  induction n with
  | zero => exact ⟨rfl, fun j _ => rfl⟩
  | succ n ih =>
    obtain ⟨h1, h2⟩ := ih (by omega)
    simp only [List.range_succ, List.foldl_append, List.foldl_cons, List.foldl_nil]
    generalize (List.range n).foldl (fun s i => advanceCarrier (compareChannel s i)) s = t at h1 h2 ⊢
    refine ⟨by rw [h1]; rfl, fun j hj => ?_⟩
    by_cases hj32 : j < 32
    · have hc := ledOut_setOut t n j (decide (t.pwmStep < t.dutyAt n)) (by omega) hj32
      show (t.setOut n (decide (t.pwmStep < t.dutyAt n))).ledOut j = _
      rw [hc, if_neg (by omega), h2 j (by omega)]
    · rw [ledOut_of_le _ _ (by omega), ledOut_of_le _ _ (by omega)]

/-- What driving the outputs leaves alone (42_pwm_wave.md R157, R158). -/
theorem driveOutputs_frame (s : State) :
    driveOutputs s = { s with out := (driveOutputs s).out, pwmStep := (driveOutputs s).pwmStep } ∧
    ∀ j, s.params.nCh ≤ j → (driveOutputs s).ledOut j = s.ledOut j := by
  have hn := s.params.nCh_le
  rw [driveOutputs]
  cases s.params.carrierMode with
  | perTick =>
    obtain ⟨h1, h2⟩ := foldl_compareChannel (List.range s.params.nCh) s
      fun i hi => (List.mem_range.mp hi).trans_le hn
    refine ⟨by dsimp only; rw [h1]; rfl, fun j hj => ?_⟩
    show (List.foldl compareChannel s _).ledOut j = _
    by_cases hj32 : j < 32
    · rw [h2 j hj32, if_neg (by simpa using hj)]
    · rw [ledOut_of_le _ _ (by omega), ledOut_of_le _ _ (by omega)]
  | perChannel => exact foldl_perChannel_frame s _ hn

/-- The carrier stays below 100 (10_state.md R35). -/
theorem driveOutputs_pwmStep_lt (s : State) (hs : s.pwmStep.toNat < 100) :
    (driveOutputs s).pwmStep.toNat < 100 := by
  rw [driveOutputs]
  cases s.params.carrierMode with
  | perTick =>
    dsimp only
    rw [advanceCarrier_toNat]
    exact Nat.mod_lt _ (by decide)
  | perChannel =>
    dsimp only
    rw [(foldl_perChannel s hs _ s.params.nCh_le).2.1]
    exact Nat.mod_lt _ (by decide)

/-- What a wave update leaves alone (42_pwm_wave.md R150). -/
theorem waveUpdate_frame (now : Word) (s : State) :
    let t := waveUpdate now s
    t = { s with
      waveLastUpdate := t.waveLastUpdate, wavePhase := t.wavePhase, duty := t.duty
      pwmStep := t.pwmStep, out := t.out } := by
  cases h : waveUpdateSkipped now s with
  | true => rw [waveUpdate_of_skipped h]
  | false => rw [waveUpdate_of_runs h, (driveOutputs_frame _).1]; rfl

theorem startWave_eq (s : State) :
    startWave s = { s with
      seqActive := false, out := 0, wavePhase := 0, waveActive := true
      waveLastUpdate := s.tick } := rfl

theorem stopWave_of_active {s : State} (h : s.waveActive = true) :
    stopWave s = { s with waveActive := false, out := 0 } := by rw [stopWave, if_pos h]; rfl

theorem stopWave_of_inactive {s : State} (h : s.waveActive = false) : stopWave s = s := by
  rw [stopWave, h]; rfl

end Sys2Proof.Machine
end

