-- ==== Sys2Proof/Laws/Tick.lean ====
section
/-! SUPPORT. The tick pass: its parts, and which part can write which register. -/

namespace Sys2Proof.Machine

theorem pollDue_iff (now : Word) (s : State) :
    pollDue now s = true ↔ s.params.buttonPollInterval ≤ elapsed now s.btnLastPoll := by
  simp [pollDue]

theorem pollButton_of_due {now : Word} {s : State} (btnIn : Bool) (h : pollDue now s = true) :
    pollButton btnIn now s = buttonUpdate btnIn now { s with btnLastPoll := now } := if_pos h

theorem pollButton_of_not_due {now : Word} {s : State} (btnIn : Bool) (h : pollDue now s = false) :
    pollButton btnIn now s = s := by rw [pollButton, h]; rfl

/-- What a button poll leaves alone (40_tick_dispatch.md R103). -/
theorem pollButton_frame (btnIn : Bool) (now : Word) (s : State) :
    let t := pollButton btnIn now s
    t = { s with
      btnRaw := t.btnRaw, btnPrev := t.btnPrev, btnState := t.btnState
      btnLastChange := t.btnLastChange, btnLastClick := t.btnLastClick, clicks := t.clicks
      btnLastPoll := t.btnLastPoll } := by
  cases h : pollDue now s with
  | true => rw [pollButton_of_due btnIn h, buttonUpdate_of_senseLevel, senseLevel_frame]
  | false => rw [pollButton_of_not_due btnIn h]

/-- The stamp of the poll does not depend on the level (40_tick_dispatch.md R103). -/
theorem pollButton_btnLastPoll (btnIn : Bool) (now : Word) (s : State) :
    (pollButton btnIn now s).btnLastPoll = if pollDue now s then now else s.btnLastPoll := by
  cases h : pollDue now s with
  | true => rw [pollButton_of_due btnIn h, buttonUpdate_of_senseLevel, senseLevel_frame]; rfl
  | false => rw [pollButton_of_not_due btnIn h]; rfl

theorem runEngine_wave {s : State} (now : Word) (h : s.waveActive = true) :
    runEngine now s = waveUpdate now s := if_pos h

theorem runEngine_sequence {s : State} (now : Word) (hw : s.waveActive = false)
    (hq : s.seqActive = true) : runEngine now s = seqUpdate now s := by
  rw [runEngine, hw, if_neg Bool.false_ne_true, if_pos hq]

theorem runEngine_static {s : State} (now : Word) (hw : s.waveActive = false)
    (hq : s.seqActive = false) : runEngine now s = s := by
  rw [runEngine, hw, hq]; rfl

/-- What the engine of a pass leaves alone: the clock, the button and the settings
(40_tick_dispatch.md R104). -/
theorem runEngine_frame (now : Word) (s : State) :
    let t := runEngine now s
    t = { s with
      waveLastUpdate := t.waveLastUpdate, wavePhase := t.wavePhase, duty := t.duty
      pwmStep := t.pwmStep, seqCur := t.seqCur, seqLastStep := t.seqLastStep, out := t.out } := by
  rcases Bool.eq_false_or_eq_true s.waveActive with hw | hw
  · rw [runEngine_wave now hw, waveUpdate_frame]
  · rcases Bool.eq_false_or_eq_true s.seqActive with hq | hq
    · rw [runEngine_sequence now hw hq, seqUpdate_frame]
    · rw [runEngine_static now hw hq]

/-- The engine of a pass neither reads nor writes the button registers, and reads the time as `now`,
never as `TICK` (40_tick_dispatch.md R104). -/
theorem runEngine_unread (now : Word) (s : State) (tick : Word) (raw prev : Bool)
    (state : ButtonState) (change click : Word) (count : BitVec 8) (poll : Word) :
    runEngine now { s with
      tick := tick, btnRaw := raw, btnPrev := prev, btnState := state, btnLastChange := change
      btnLastClick := click, clicks := count, btnLastPoll := poll } =
    { runEngine now s with
      tick := tick, btnRaw := raw, btnPrev := prev, btnState := state, btnLastChange := change
      btnLastClick := click, clicks := count, btnLastPoll := poll } := by
  let put : State → State := fun s => { s with
    tick := tick, btnRaw := raw, btnPrev := prev, btnState := state, btnLastChange := change
    btnLastClick := click, clicks := count, btnLastPoll := poll }
  have loop {α : Type} (f : State → α → State) (hf : ∀ s a, f (put s) a = put (f s a)) (l : List α)
      (s : State) : l.foldl f (put s) = put (l.foldl f s) := by
    induction l generalizing s with
    | nil => rfl
    | cons a l ih => rw [List.foldl_cons, List.foldl_cons, hf, ih]
  have drive (s : State) : driveOutputs (put s) = put (driveOutputs s) := by
    rw [driveOutputs, driveOutputs, show (put s).params = s.params from rfl]
    cases s.params.carrierMode
    · dsimp only
      rw [loop compareChannel fun _ _ => rfl]
      rfl
    · exact loop _ (fun _ _ => rfl) _ s
  show runEngine now (put s) = put (runEngine now s)
  show (if s.waveActive then waveUpdate now (put s) else if s.seqActive then seqUpdate now (put s)
    else put s) = put (if s.waveActive then waveUpdate now s else if s.seqActive then seqUpdate now s
    else s)
  split
  · cases hk : waveUpdateSkipped now s with
    | true => rw [waveUpdate_of_skipped hk, waveUpdate_of_skipped (s := put s) hk]
    | false => rw [waveUpdate_of_runs hk, waveUpdate_of_runs (s := put s) hk, ← drive]; rfl
  · split
    · cases hk : seqStepDue now s with
      | true => rw [seqUpdate_of_due hk, seqUpdate_of_due (s := put s) hk]; rfl
      | false => rw [seqUpdate_of_not_due hk, seqUpdate_of_not_due (s := put s) hk]
    · rfl

/-- The parts of a pass (40_tick_dispatch.md R100). -/
theorem tickPass_eq (btnIn : Bool) (s : State) :
    tickPass btnIn s = runEngine (s.tick + 1) (pollButton btnIn (s.tick + 1) (advanceTick s)) := rfl

/-- What a pass leaves alone (40_tick_dispatch.md R100). -/
theorem tickPass_frame (btnIn : Bool) (s : State) :
    let t := tickPass btnIn s
    t = { s with
      tick := s.tick + 1
      btnRaw := t.btnRaw, btnPrev := t.btnPrev, btnState := t.btnState
      btnLastChange := t.btnLastChange, btnLastClick := t.btnLastClick, clicks := t.clicks
      btnLastPoll := t.btnLastPoll
      waveLastUpdate := t.waveLastUpdate, wavePhase := t.wavePhase, duty := t.duty
      pwmStep := t.pwmStep, seqCur := t.seqCur, seqLastStep := t.seqLastStep, out := t.out } := by
  rw [tickPass_eq, runEngine_frame, pollButton_frame]
  rfl

/-- The button registers of a pass are those of its poll. -/
theorem tickPass_button (btnIn : Bool) (s : State) :
    let t := tickPass btnIn s
    let b := pollButton btnIn (s.tick + 1) (advanceTick s)
    t.btnRaw = b.btnRaw ∧ t.btnPrev = b.btnPrev ∧ t.btnState = b.btnState ∧
      t.btnLastChange = b.btnLastChange ∧ t.btnLastClick = b.btnLastClick ∧ t.clicks = b.clicks ∧
      t.btnLastPoll = b.btnLastPoll := by
  rw [tickPass_eq, runEngine_frame]
  exact ⟨rfl, rfl, rfl, rfl, rfl, rfl, rfl⟩

/-- Apart from the clock and the button registers, a pass does what its engine does to the state before
it (40_tick_dispatch.md R100, R104). -/
theorem tickPass_engine (btnIn : Bool) (s : State) :
    let t := tickPass btnIn s
    t = { runEngine (s.tick + 1) s with
      tick := s.tick + 1
      btnRaw := t.btnRaw, btnPrev := t.btnPrev, btnState := t.btnState
      btnLastChange := t.btnLastChange, btnLastClick := t.btnLastClick, clicks := t.clicks
      btnLastPoll := t.btnLastPoll } := by
  obtain ⟨raw, prev, state, change, click, count, poll⟩ := tickPass_button btnIn s
  dsimp only
  rw [raw, prev, state, change, click, count, poll, tickPass_eq]
  exact (congrArg (runEngine _) (pollButton_frame btnIn (s.tick + 1) (advanceTick s))).trans
    (runEngine_unread (s.tick + 1) s (s.tick + 1) ..)

end Sys2Proof.Machine
end

