-- ==== Sys2Proof/Laws/Step.lean ====
section
/-! SUPPORT. What a step can do: one equation per input, the one inversion of a command's step, what
the commands that switch modes do, and runs of several steps or passes. -/

namespace Sys2Proof.Machine

theorem step_tick {s : State} {level : Bool} (h : nextInput s = .tick level) :
    step s = .next (tickPass level (takeInput s)) := by rw [step, h]

theorem step_command {s : State} {w : Cmd} (h : nextInput s = .command w) :
    step s = exec (decode w) (takeInput s) := by rw [step, h]

theorem step_reset {s : State} {level : Bool} (h : nextInput s = .reset level) :
    step s = .next (resetStep level (takeInput s)) := by rw [step, h]

/-- A run of one more step than n is a step and then a run of n. -/
theorem run_succ_of_next {s t : State} (n : Nat) (h : step s = .next t) :
    core.run (n + 1) s = core.run n t := by
  have unfolded (M : Host.Core) (s t : M.State) (h : M.step s = .next t) :
      M.run (n + 1) s = M.run n t := by rw [Host.Core.run, h]
  exact unfolded core s t h

theorem passes_nil (s : State) : passes [] s = s := rfl

theorem passes_cons (level : Bool) (levels : List Bool) (s : State) :
    passes (level :: levels) s = passes levels (tickPass level s) := rfl

theorem passes_concat (levels : List Bool) (level : Bool) (s : State) :
    passes (levels ++ [level]) s = tickPass level (passes levels s) := by simp [passes]

/-- Taking an input touches the schedule only (20_memory.md R66). -/
theorem takeInput_frame (s : State) :
    takeInput s = { s with env := (takeInput s).env, draws := (takeInput s).draws } := by
  rw [takeInput]
  split <;> rfl

/-- The effect of a mode switch (44_mode_outputs.md R211). -/
theorem setMode_cases (v : Word) (s : State) :
    setMode v s = s ∨
    (v = 0 ∧ s.mode ≠ .static ∧ setMode v s = stopSequence (stopWave s)) ∨
    (v = 1 ∧ s.mode ≠ .pwm ∧ setMode v s = startWave s) ∨
    (v = 2 ∧ s.mode ≠ .sequence ∧ setMode v s = startSequence s.seqStep s) := by
  rw [setMode, modeOfOperand]
  by_cases h0 : v = 0
  · subst h0
    by_cases hm : Mode.static = s.mode
    · simp [hm]
    · exact Or.inr (Or.inl ⟨rfl, Ne.symm hm, by simp [hm, switchMode]⟩)
  · by_cases h1 : v = 1
    · subst h1
      by_cases hm : Mode.pwm = s.mode
      · simp [hm]
      · exact Or.inr (Or.inr (Or.inl ⟨rfl, Ne.symm hm, by simp [hm, switchMode]⟩))
    · by_cases h2 : v = 2
      · subst h2
        by_cases hm : Mode.sequence = s.mode
        · simp [hm]
        · exact Or.inr (Or.inr (Or.inr ⟨rfl, Ne.symm hm, by simp [hm, switchMode]⟩))
      · exact Or.inl (by rw [if_neg h0, if_neg h1, if_neg h2])

/-- Stopping both engines (44_mode_outputs.md R211): nothing in STATIC mode. -/
theorem stopBoth_eq (s : State) :
    stopSequence (stopWave s) = { s with
      waveActive := false, seqActive := false
      out := if s.waveActive = true ∨ s.seqActive = true then 0 else s.out } := by
  obtain ⟨_, _, _, _, _, _, _, _, _, w, _, _, _, _, _, _, q⟩ := s
  cases w <;> cases q <;> rfl

/-- What a command can change (10_state.md R22 to R41): the settings, the engines' activity, the
outputs, the click count and the response. -/
theorem exec_frame {i : Instr} {s t : State} (h : exec i s = .next t) :
    t = { s with
      clicks := t.clicks, waveActive := t.waveActive, wavePhase := t.wavePhase
      waveSpeed := t.waveSpeed, wavePeriod := t.wavePeriod, waveLastUpdate := t.waveLastUpdate
      seqActive := t.seqActive, seqCur := t.seqCur, seqStep := t.seqStep
      seqLastStep := t.seqLastStep, out := t.out, resp := t.resp } := by
  cases i
  case setMode v =>
    cases h
    rcases setMode_cases v s with h | ⟨-, -, h⟩ | ⟨-, -, h⟩ | ⟨-, -, h⟩ <;>
      simp only [h, stopBoth_eq, startWave_eq, startSequence_eq]
  case stopWave =>
    cases h
    rw [stopWave]
    split <;> rfl
  case stopSequence =>
    cases h
    rw [stopSequence]
    split <;> rfl
  case ledWrite ch val =>
    cases h
    split <;> rfl
  all_goals
    cases h
    rfl

/-- The one way a command changes the click count is to clear it (10_state.md R28). -/
theorem exec_clicks {i : Instr} {s t : State} (h : exec i s = .next t) :
    t.clicks = s.clicks ∨ t.clicks = 0 := by
  cases i
  case resetClickCount =>
    cases h
    exact .inr rfl
  case setMode v =>
    cases h
    left
    rcases setMode_cases v s with h | ⟨-, -, h⟩ | ⟨-, -, h⟩ | ⟨-, -, h⟩ <;>
      simp only [h, stopBoth_eq, startWave_eq, startSequence_eq]
  case stopWave =>
    cases h
    left
    rw [stopWave]
    split <;> rfl
  case stopSequence =>
    cases h
    left
    rw [stopSequence]
    split <;> rfl
  case ledWrite ch val =>
    cases h
    left
    split <;> rfl
  all_goals
    cases h
    exact .inl rfl

/-- Every command completes (60_exceptions.md R250). -/
theorem exec_answers (i : Instr) (s : State) :
    ∃ v t, exec i s = answer v t := by
  cases i <;> exact ⟨_, _, rfl⟩

end Sys2Proof.Machine
end

