-- ==== Sys2Proof/Tests/Slice0.lean ====
section
/-! SUPPORT. Tests: ill-formed terms, every command's decoding, one step of every command and of a pass,
and for every statement with hypotheses a witness that meets them. Expected values are those of
95_test_vectors.md, named by vector, or read off the rule named. -/

namespace Sys2Proof.Tests

open Sys2Proof.Machine

/-! ### Well-formedness: each check refuses a term (30_encoding.md R84) -/

theorem test_illFormed_reserved14 :
    (Instr.reserved14 0x13).wellFormed = false ∧ (Instr.reserved14 0x18).wellFormed = false := by decide
theorem test_illFormed_reserved18 :
    (Instr.reserved18 0x17).wellFormed = false ∧ (Instr.reserved18 0x20).wellFormed = false := by decide
theorem test_illFormed_reserved20 :
    (Instr.reserved20 0x1F).wellFormed = false ∧ (Instr.reserved20 0x40).wellFormed = false := by decide
theorem test_illFormed_reserved40 :
    (Instr.reserved40 0x3F).wellFormed = false ∧ (Instr.reserved40 0x80).wellFormed = false := by decide
theorem test_illFormed_reserved80 :
    (Instr.reserved80 0x7F).wellFormed = false ∧ (Instr.reserved80 0x00).wellFormed = false := by decide

/-! ### Decoding: words {OP, ARG[31:17], ARG[16], ARG[15:0]} written out from 30_encoding.md R80, R84
and the table of 95_test_vectors.md 2.7 -/

theorem test_decode_nop : decode (0x00#8 ++ 0#32) = .nop := by decide
theorem test_decode_getTick :
    decode 0x0100000000 = .getTick ∧ decode 0x01FFFFFFFF = .getTick := by decide
theorem test_decode_setMode :
    decode (0x02#8 ++ 2#32) = .setMode 2 ∧ decode 0x02FFFFFFFF = .setMode 0xFFFFFFFF := by decide
theorem test_decode_getMode : decode 0x0300000000 = .getMode := by decide
theorem test_decode_startWave : decode 0x0400000000 = .startWave := by decide
theorem test_decode_stopWave : decode 0x0500000000 = .stopWave := by decide
theorem test_decode_setWaveSpeed : decode 0x0600000007 = .setWaveSpeed 7 := by decide
theorem test_decode_setWavePeriod :
    decode 0x07000005DC = .setWavePeriod 1500 ∧ decode (0x07#8 ++ 0x80000001#32) = .setWavePeriod 0x80000001 := by
  decide
theorem test_decode_getWaveActive : decode 0x0800000000 = .getWaveActive := by decide
theorem test_decode_startSequence :
    decode 0x09000000C8 = .startSequence 200 ∧ decode 0x0912345678 = .startSequence 0x12345678 := by decide
theorem test_decode_stopSequence : decode 0x0A00000000 = .stopSequence := by decide
theorem test_decode_getSeqActive : decode 0x0B00000000 = .getSeqActive := by decide
theorem test_decode_getButtonState :
    decode 0x0C00000000 = .getButtonState ∧ decode 0x0CFFFFFFFF = .getButtonState := by decide
theorem test_decode_getClickCount : decode 0x0D00000000 = .getClickCount := by decide
theorem test_decode_resetClickCount : decode 0x0E00000000 = .resetClickCount := by decide
theorem test_decode_ledWrite :
    decode (0x0F#8 ++ 0#15 ++ 1#1 ++ 2#16) = .ledWrite 2 true ∧ decode 0x0F00030006 = .ledWrite 6 true ∧
    decode 0x0FFFFE0002 = .ledWrite 2 false := by decide
theorem test_decode_getOutputs : decode 0x1000000000 = .getOutputs := by decide
theorem test_decode_getPhase : decode 0x1100000000 = .getPhase := by decide
theorem test_decode_getDuty :
    decode (0x12#8 ++ 0#15 ++ 0#1 ++ 5#16) = .getDuty 5 ∧ decode 0x1200010001 = .getDuty 1 := by decide
theorem test_decode_reserved13 : decode 0x13DEADBEEF = .reserved13 := by decide
theorem test_decode_reserved14 :
    decode 0x1400000000 = .reserved14 0x14 ∧ decode 0x17FFFFFFFF = .reserved14 0x17 := by decide
theorem test_decode_reserved18 :
    decode 0x1800000000 = .reserved18 0x18 ∧ decode 0x1FFFFFFFFF = .reserved18 0x1F := by decide
theorem test_decode_reserved20 :
    decode 0x2000000000 = .reserved20 0x20 ∧ decode 0x3FFFFFFFFF = .reserved20 0x3F := by decide
theorem test_decode_reserved40 :
    decode 0x4000000000 = .reserved40 0x40 ∧ decode 0x7FFFFFFFFF = .reserved40 0x7F := by decide
theorem test_decode_reserved80 :
    decode 0x8000000000 = .reserved80 0x80 ∧ decode 0xFF00000000 = .reserved80 0xFF := by decide

/-- The words of programs P2 and P4, assembled (30_encoding.md R89). -/
theorem test_encode :
    encode (.setWavePeriod 8) = 0x0700000008 ∧ encode (.ledWrite 5 true) = 0x0F00010005 ∧
    encode (.getDuty 5) = 0x1200000005 ∧ encode .stopSequence = 0x0A00000000 := by decide

/-- A word numbered as the opcode table numbers it, and a value that is no 40-bit word (R80). -/
theorem test_decodeTableWord :
    decodeTableWord 40 0x09000000C8 = some (.startSequence 200) ∧
    decodeTableWord 40 (2 ^ 40) = none ∧ decodeTableWord 48 0 = none := by decide

/-! ### Steps -/

/-- The reference parameters, with `PRESSED_LEVEL` = 1 and the window of vector B10. -/
def params : Params := { Params.reference with pressedLevel := true, clickAutoResetWindow := 1000 }

/-- The reset state with the button line released. -/
def start : State := State.atReset params false

/-- The state a step answers. -/
def answered (o : StepOutcome) : Option State :=
  match o with
  | .next t => some t
  | .fault _ => none
  | .refused _ => none

/-- One step that is presented the command word `w`. -/
def command (w : Cmd) (s : State) : Option State := answered (step (s.present w))

/-- One step that is presented a strobe. -/
def strobe (level : Bool) (s : State) : Option State :=
  answered (step { s with env := [.tick level] })

/-- M5: `NOP` leaves every register unchanged. -/
theorem test_nop : command 0x0000000000 start = some start := by decide
/-- P1 item 10. -/
theorem test_getTick :
    (command 0x0100000000 { start with tick := 800 }).map (·.resp) = some 0x320 := by decide
/-- M1, the first row. -/
theorem test_setMode_sequence :
    (command 0x0200000002 start).map (fun t => (t.mode, t.out, t.seqStep)) =
      some (.sequence, 0b0001, 200) := by decide
/-- M1, the reserved value. -/
theorem test_setMode_reserved :
    command 0x0200000003 { start with waveActive := true } =
      some { start with waveActive := true } := by decide
/-- M6. -/
theorem test_getMode :
    (command 0x0300000000 { start with seqActive := true }).map (·.resp) = some 2 := by decide
/-- V15: a restart clears the phase and the outputs and keeps the carrier and the duties. -/
theorem test_startWave :
    (command 0x0400000000 { start with
      tick := 5, waveActive := true, wavePhase := 5, out := 0b1111, pwmStep := 5
      duty := [15, 15, 85, 85] }).map
      (fun t => (t.wavePhase, t.out, t.waveLastUpdate, t.pwmStep, t.duty)) =
    some (0, 0b0000, 5, 5, [15, 15, 85, 85]) := by decide
/-- V17: a stop of an inactive engine leaves the manual level. -/
theorem test_stopWave_inactive :
    (command 0x0500000000 { start with out := 0b0100 }).map (·.out) = some 0b0100 := by decide
/-- V18. -/
theorem test_stopWave_active :
    (command 0x0500000000 { start with waveActive := true, out := 0b0111, pwmStep := 8 }).map
      (fun t => (t.waveActive, t.out, t.pwmStep)) = some (false, 0b0000, 8) := by decide
/-- V16. -/
theorem test_setWaveSpeed :
    (command 0x0600000003 start).map (fun t => (t.waveSpeed, t.wavePeriod)) = some (3, 1500) := by
  decide
/-- V9: the phase stays although the new period is smaller. -/
theorem test_setWavePeriod :
    (command 0x0700000008 { start with wavePhase := 1400 }).map
      (fun t => (t.wavePeriod, t.wavePhase)) = some (8, 1400) := by decide
/-- V20. -/
theorem test_getWaveActive :
    (command 0x0800000000 { start with waveActive := true }).map (·.resp) = some 1 := by decide
/-- S5: the wave stops, its phase stays, and the chase lights channel 0. -/
theorem test_startSequence :
    (command 0x0900000002 { start with
      tick := 3, waveActive := true, wavePhase := 3, out := 0b0111 }).map
      (fun t => (t.waveActive, t.seqActive, t.out, t.mode.code, t.wavePhase, t.seqLastStep)) =
    some (false, true, 0b0001, 2, 3, 3) := by decide
/-- S8. -/
theorem test_stopSequence_active :
    (command 0x0A00000000 { start with seqActive := true, seqCur := 2, out := 0b0100 }).map
      (fun t => (t.out, t.mode.code, t.seqCur)) = some (0b0000, 0, 2) := by decide
/-- S7. -/
theorem test_stopSequence_inactive :
    (command 0x0A00000000 { start with out := 0b0100 }).map (·.out) = some 0b0100 := by decide
/-- S9. -/
theorem test_getSeqActive :
    (command 0x0B00000000 { start with seqActive := true }).map (·.resp) = some 1 := by decide
/-- B14b. -/
theorem test_getButtonState :
    (command 0x0C00000000 { start with btnState := .held }).map (·.resp) = some 2 := by decide
/-- B14c. -/
theorem test_getClickCount :
    (command 0x0D00000000 { start with clicks := 3 }).map (·.resp) = some 3 := by decide
/-- B14d: the last-click time stays. -/
theorem test_resetClickCount :
    (command 0x0E00000000 { start with clicks := 3, btnLastClick := 550 }).map
      (fun t => (t.clicks, t.btnLastClick, t.resp)) = some (0, 550, 0) := by decide
/-- M3, the second and third rows. -/
theorem test_ledWrite_static :
    (command 0x0F00010006 start).map (·.out) = some 0b0100 ∧
    (command 0x0FFFFE0002 { start with out := 0b0110 }).map (·.out) = some 0b0010 := by decide
/-- M3, the last row: refused in PWM mode. -/
theorem test_ledWrite_pwm :
    (command 0x0F00010003 { start with waveActive := true }).map (·.out) = some 0 := by decide
/-- M4. -/
theorem test_getOutputs :
    (command 0x1000000000 { start with out := 0b0111 }).map (·.resp) = some 0x00000007 := by
  decide
/-- V9. -/
theorem test_getPhase :
    (command 0x1100000000 { start with wavePhase := 1400 }).map (·.resp) = some 1400 := by
  decide
/-- V19: the index wraps at `N_CH`, and `ARG[31:16]` is ignored. -/
theorem test_getDuty :
    (command 0x1200000005 { start with duty := [50, 100, 50, 0] }).map (·.resp) = some 100 ∧
    (command 0x1200010003 { start with duty := [50, 100, 50, 0] }).map (·.resp) = some 0 := by
  decide
/-- M5: a reserved word of each row leaves every register unchanged. -/
theorem test_reserved13 : command 0x1312345678 start = some start := by decide
theorem test_reserved14 : command 0x1512345678 start = some start := by decide
theorem test_reserved18 : command 0x1A12345678 start = some start := by decide
theorem test_reserved20 : command 0x2B12345678 start = some start := by decide
theorem test_reserved40 : command 0x5C12345678 start = some start := by decide
theorem test_reserved80 :
    command 0x8012345678 start = some start ∧ command 0xFF12345678 start = some start := by
  decide

/-- A word placed by `withFetchWord` is what the next step runs, from reset too. -/
theorem test_withFetchWord :
    (answered (step (State.reset.withFetchWord 40 0x09000000C8))).map
      (fun t => (t.out, t.seqActive, t.seqStep, t.tick)) = some (1, true, 200, 0) := by decide

/-! ### Passes -/

/-- T7: with no engine, and no poll, only `TICK` changes. -/
theorem test_pass_static : strobe true start = some { start with tick := 1 } := by decide
/-- W1: the wrap of `TICK`. -/
theorem test_pass_wrap :
    (strobe false { start with tick := 0xFFFFFFFF, btnLastPoll := 0xFFFFFFFA }).map
      (fun t => (t.tick, t.btnLastPoll)) = some (0, 0xFFFFFFFA) := by decide
/-- T6: the first poll after the wrap. -/
theorem test_pass_poll_after_wrap :
    (strobe false { start with tick := 3, btnLastPoll := 4294967290 }).map (·.btnLastPoll) =
      some 4 := by decide
/-- T4: pass 10 polls the button and then runs the wave update. -/
theorem test_pass_poll_and_wave :
    (strobe false { start with tick := 9, waveActive := true, wavePhase := 9 }).map
      (fun t => (t.btnLastPoll, t.wavePhase)) = some (10, 10) := by decide
/-- B1, the poll at 100: the press. -/
theorem test_pass_press :
    (strobe true { start with tick := 99, btnLastPoll := 90 }).map
      (fun t => (t.btnState, t.clicks, t.btnPrev, t.btnLastChange, t.btnLastClick)) =
    some (.pressed, 0, true, 100, 0) := by decide
/-- B4, the release at 750: the fourth click wraps the count. -/
theorem test_pass_click_wraps :
    (strobe false { start with
      tick := 749, btnLastPoll := 740, btnState := .pressed, clicks := 3, btnPrev := true
      btnLastChange := 700, btnLastClick := 550 }).map
      (fun t => (t.btnState, t.clicks, t.btnPrev, t.btnLastChange, t.btnLastClick)) =
    some (.released, 0, false, 750, 750) := by decide
/-- B6a: at exactly `CLICK_SERIES_INTERVAL` the series is new. -/
theorem test_pass_new_series :
    (strobe false { start with
      tick := 5149, btnLastPoll := 5140, btnState := .pressed, clicks := 1, btnPrev := true
      btnLastChange := 5100, btnLastClick := 150 }).map (·.clicks) = some 1 := by decide
/-- B7: not Held at exactly `HOLD_THRESHOLD`, Held at the next poll. -/
theorem test_pass_hold :
    (strobe true { start with
      tick := 2099, btnLastPoll := 2090, btnState := .pressed, btnPrev := true
      btnLastChange := 100 }).map (·.btnState) = some .pressed ∧
    (strobe true { start with
      tick := 2109, btnLastPoll := 2100, btnState := .pressed, btnPrev := true
      btnLastChange := 100 }).map (·.btnState) = some .held := by decide
/-- B10: the stale-click auto reset at 1150 and at 1160. -/
theorem test_pass_auto_reset :
    (strobe false { start with
      params := { params with clickAutoReset := true }, tick := 1149, btnLastPoll := 1140
      clicks := 1, btnLastClick := 150 }).map (·.clicks) = some 1 ∧
    (strobe false { start with
      params := { params with clickAutoReset := true }, tick := 1159, btnLastPoll := 1150
      clicks := 1, btnLastClick := 150 }).map (fun t => (t.clicks, t.btnLastClick)) =
      some (0, 150) := by decide
/-- W8, the pass at 3. -/
theorem test_pass_wave_1500 :
    (strobe false { start with tick := 2, waveActive := true, wavePhase := 2, pwmStep := 2 }).map
      (fun t => (t.wavePhase, t.duty, t.out, t.pwmStep)) =
    some (3, [51, 100, 49, 0], 0b0111, 3) := by decide
/-- V7: the phase sum is exact. -/
theorem test_pass_exact_sum :
    (strobe false { start with
      waveActive := true, wavePeriod := 1000, wavePhase := 999, waveSpeed := 0xFFFFFFFF }).map
      (fun t => (t.wavePhase, t.duty)) = some (294, [98, 36, 2, 64]) := by decide
/-- V12: the largest period. -/
theorem test_pass_largest_period :
    (strobe false { start with waveActive := true, wavePeriod := 0xFFFFFFFF }).map
      (fun t => (t.wavePhase, t.duty, t.out)) = some (1, [50, 100, 50, 0], 0b0111) := by decide
/-- V3, the pass at 5: with the per-channel carrier the steps compared are 16 to 19. -/
theorem test_pass_perChannel :
    (strobe false { start with
      params := { params with carrierMode := .perChannel }, waveActive := true, wavePeriod := 8
      wavePhase := 4, pwmStep := 16 }).map (fun t => (t.duty, t.out, t.pwmStep)) =
    some ([15, 15, 85, 85], 0b1100, 20) := by decide
/-- V4, the pass at 4: the per-channel carrier wraps to 0. -/
theorem test_pass_carrier_wraps :
    (strobe false { start with
      params := { params with carrierMode := .perChannel }, waveActive := true, wavePeriod := 8
      wavePhase := 3, pwmStep := 96 }).map (fun t => (t.out, t.pwmStep)) =
    some (0b1000, 0) := by decide
/-- V8: with period 0 an active engine changes nothing. -/
theorem test_pass_period_zero :
    strobe false { start with waveActive := true, wavePeriod := 0 } =
      some { start with waveActive := true, wavePeriod := 0, tick := 1 } := by decide
/-- V6: the update at 2 is skipped, that at 3 runs. -/
theorem test_pass_min_interval :
    (strobe false { start with
      params := { params with waveMinUpdateInterval := 3 }, tick := 1, waveActive := true
      wavePeriod := 8 }).map (fun t => (t.wavePhase, t.out)) = some (0, 0b0000) ∧
    (strobe false { start with
      params := { params with waveMinUpdateInterval := 3 }, tick := 2, waveActive := true
      wavePeriod := 8 }).map (fun t => (t.wavePhase, t.out)) = some (1, 0b1111) := by decide
/-- W6: no chase step at 199, and the step back to channel 0 at 800. -/
theorem test_pass_chase :
    (strobe false { start with tick := 198, seqActive := true, out := 0b0001 }).map (·.out) =
      some 0b0001 ∧
    (strobe false { start with
      tick := 799, seqActive := true, seqCur := 3, seqLastStep := 600, out := 0b1000 }).map
      (fun t => (t.seqCur, t.out, t.seqLastStep)) = some (0, 0b0001, 800) := by decide
/-- S3: with one channel the chase stays on it. -/
theorem test_pass_chase_one_channel :
    (strobe false { start with
      params := { params with topChannel := 0 }, tick := 2, seqActive := true, seqStep := 3
      out := 0b1 }).map (fun t => (t.seqCur, t.out)) = some (0, 0b1) := by decide
/-- R280: a reset in the middle of a run. -/
theorem test_reset_step :
    answered (step { start with
      tick := 77, waveActive := true, wavePhase := 3, wavePeriod := 8, out := 0b1111, clicks := 2
      btnState := .held, resp := 9, env := [.reset true] }) =
    some { start with btnRaw := true, btnPrev := true } := by decide

/-- 95_test_vectors.md 2.3, the periods 3, 5, 7 and 12. -/
theorem test_dutyFn_tables :
    (List.range 3).map (dutyFn 3) = [50, 93, 7] ∧
    (List.range 5).map (dutyFn 5) = [50, 98, 79, 21, 2] ∧
    (List.range 7).map (dutyFn 7) = [50, 89, 99, 72, 28, 1, 11] ∧
    (List.range 12).map (dutyFn 12) = [50, 75, 93, 100, 93, 75, 50, 25, 7, 0, 7, 25] := by
  decide
/-- 95_test_vectors.md 2.3, the period 100 at the positions 0 to 25. -/
theorem test_dutyFn_100 :
    (List.range 26).map (dutyFn 100) =
      [50, 53, 56, 59, 62, 65, 68, 71, 74, 77, 79, 82, 84] ++
      [86, 89, 90, 92, 94, 95, 96, 98, 98, 99, 100, 100, 100] := by decide

/-! ### Witnesses: for every statement with hypotheses, values that meet them, at the boundary of each
clause -/

/-- A state that is presented one input. -/
def given (i : Input) : State := { start with env := [i] }

theorem start_inv : start.Inv where
  clicks := by decide
  duty := by decide
  file := by decide
  carrier := by decide
  current := by decide
  engines := by decide
  chase := by decide
  lines := by decide

/-- A chase on the last channel. -/
def chasing : State := { start with seqActive := true, seqCur := 3, out := 0b1000, seqStep := 5 }

theorem chasing_inv : chasing.Inv where
  clicks := by decide
  duty := by decide
  file := by decide
  carrier := by decide
  current := by decide
  engines := by decide
  chase := by decide
  lines := by decide

/-- An active wave of period 8 that stands still, at the carrier's last step. -/
def waving : State :=
  { start with waveActive := true, wavePeriod := 8, waveSpeed := 0, wavePhase := 3, pwmStep := 99 }

theorem waving_inv : waving.Inv where
  clicks := by decide
  duty := by decide
  file := by decide
  carrier := by decide
  current := by decide
  engines := by decide
  chase := by decide
  lines := by decide

theorem witness_DecodeOfEncode :
    (Instr.ledWrite 0xFFFF true).wellFormed = true ∧ (Instr.setMode 0xFFFFFFFF).wellFormed = true ∧
    (Instr.reserved14 0x14).wellFormed = true ∧ (Instr.reserved14 0x17).wellFormed = true ∧
    (Instr.reserved18 0x18).wellFormed = true ∧ (Instr.reserved18 0x1F).wellFormed = true ∧
    (Instr.reserved20 0x20).wellFormed = true ∧ (Instr.reserved20 0x3F).wellFormed = true ∧
    (Instr.reserved40 0x40).wellFormed = true ∧ (Instr.reserved40 0x7F).wellFormed = true ∧
    (Instr.reserved80 0x80).wellFormed = true ∧ (Instr.reserved80 0xFF).wellFormed = true := by decide

theorem witness_EncodeOfDecode :
    (0x01FFFFFFFF : Cmd) &&& (decode 0x0100000000).usedBits =
      0x0100000000 &&& (decode 0x0100000000).usedBits ∧
    (0x0FFFFE0002 : Cmd) &&& (decode 0x0F00000002).usedBits =
      0x0F00000002 &&& (decode 0x0F00000002).usedBits := by decide

theorem witness_EveryWordMatchesExactlyOneRow :
    (0x17FFFFFFFF : Cmd) &&& (Instr.reserved14 0x14).rowMask = (Instr.reserved14 0x14).rowMatch ∧
    (0x1200010001 : Cmd) &&& (Instr.getDuty 0).rowMask = (Instr.getDuty 0).rowMatch := by decide

theorem witness_StepRunsTheDecodedCommand :
    (given (.command 0x09000000C8)).env = .command 0x09000000C8 :: [] ∧
    decodeTableWord 40 0x09000000C8 = some (.startSequence 200) ∧
    decodeTableWord 40 (2 ^ 40 - 1) = some (.reserved80 0xFF) := by decide

theorem witness_StepRunsThePassOfAStrobe :
    (given (.tick true)).env = .tick true :: [] ∧ start.env = [] := by decide

theorem witness_ParametersNeverChange :
    ∃ t, step (given (.reset true)) = .next t := ⟨_, rfl⟩

theorem witness_ResetEstablishesTheResetTable :
    (given (.reset true)).env = .reset true :: [] := rfl

theorem witness_StepPreservesInvariants :
    (State.present chasing 0x0A00000000).Inv ∧
      ∃ t, step (State.present chasing 0x0A00000000) = .next t :=
  ⟨⟨chasing_inv.clicks, chasing_inv.duty, chasing_inv.file, chasing_inv.carrier,
    chasing_inv.current, chasing_inv.engines, chasing_inv.chase, chasing_inv.lines⟩, _, rfl⟩

theorem witness_HeldIsNeverEnteredFromReleased :
    ∃ t, step { start with
        tick := 2109, btnLastPoll := 2100, btnState := .pressed, btnPrev := true
        btnLastChange := 100, env := [.tick true] } = .next t ∧ t.btnState = .held :=
  ⟨_, rfl, by decide⟩

theorem witness_TickAdvancesOncePerPass :
    ({ start with tick := 0xFFFFFFFF } : State).tick = 0xFFFFFFFF ∧
    ∃ t, exec .startWave start = .next t := ⟨rfl, _, rfl⟩

theorem witness_ElapsedTimeLaw :
    ({ start with env := [.tick true, .command 0x0400000000, .tick false, .reset true] } : State).env =
      [.tick true, .command 0x0400000000, .tick false] ++ [.reset true] ∧
    [Input.tick true, .command 0x0400000000, .tick false].all isRunInput = true := by decide

theorem witness_ButtonUnseenBetweenPolls :
    ({ start with tick := 8 } : State).tick + 1 - start.btnLastPoll < start.params.buttonPollInterval ∧
    ¬ ({ start with tick := 9 } : State).tick + 1 - start.btnLastPoll <
      start.params.buttonPollInterval := by decide

theorem witness_PassFrame :
    start.waveActive = false ∧ start.seqActive = false ∧ start.mode = .static ∧
    chasing.waveActive = false ∧ waving.waveActive = true := by decide

/-- The commands of the two states: with other button registers, and with a query of them. -/
theorem witness_ButtonNeverReachesTheOutputs :
    let other := { chasing with
      btnRaw := true, btnPrev := true, btnState := .held, btnLastChange := 7, btnLastClick := 8
      clicks := 3, btnLastPoll := 9 }
    (∃ t, exec .getClickCount chasing = .next t) ∧ (∃ u, exec .getClickCount other = .next u) ∧
    (∃ t, exec .stopSequence chasing = .next t) ∧ (∃ u, exec .stopSequence other = .next u) ∧
    Instr.stopSequence ≠ .getButtonState ∧ Instr.stopSequence ≠ .getClickCount :=
  ⟨⟨_, rfl⟩, ⟨_, rfl⟩, ⟨_, rfl⟩, ⟨_, rfl⟩, by decide, by decide⟩

theorem witness_DebounceLockout :
    (true ≠ start.btnPrev ∧ start.params.debounceWindow ≤ 25 - start.btnLastChange) ∧
    (true ≠ start.btnPrev ∧ 24 - start.btnLastChange < start.params.debounceWindow) ∧
    false = start.btnPrev := by decide

theorem witness_PressCommit :
    start.params.pressedLevel ≠ start.btnPrev ∧
    start.params.debounceWindow ≤ 25 - start.btnLastChange := by decide

/-- A committed press at 100, before a release. -/
def pressed : State := { start with btnState := .pressed, btnPrev := true, btnLastChange := 100 }

theorem witness_ReleaseCommit :
    (!pressed.params.pressedLevel) ≠ pressed.btnPrev ∧
    pressed.params.debounceWindow ≤ 125 - pressed.btnLastChange ∧ pressed.btnState = .pressed ∧
    ({ pressed with btnState := .held } : State).btnState ≠ .pressed := by decide

theorem witness_HoldDetection :
    (true = pressed.btnPrev ∧ true = pressed.params.pressedLevel ∧ pressed.btnState = .pressed ∧
      pressed.params.holdThreshold < 2101 - pressed.btnLastChange) ∧
    (true = pressed.btnPrev ∧ ¬ pressed.params.holdThreshold < 2100 - pressed.btnLastChange) ∧
    (({ pressed with btnState := .held } : State).btnState = .held ∧
      (buttonUpdate true 2111 { pressed with btnState := .held }).btnLastChange = 100 ∧
      (buttonUpdate true 2111 { pressed with btnState := .held }).btnPrev = true) := by decide

/-- A click at 150 with the auto reset on: the premise of the last clause. -/
theorem witness_StaleClickAutoReset :
    (buttonUpdate false 150 { pressed with
      params := { params with clickAutoReset := false } }).btnLastClick = 150 := by decide

theorem witness_CommitHappensExactlyOnce :
    true ≠ start.btnPrev ∧ start.params.debounceWindow ≤ 25 - start.btnLastChange := by decide

theorem witness_PressAndReleaseMakeOneClick :
    start.params.clickAutoReset = false ∧ start.btnPrev ≠ start.params.pressedLevel ∧
    start.params.debounceWindow ≤ 100 - start.btnLastChange ∧
    start.params.debounceWindow ≤ 3000 - (100 : Word) ∧
    2100 - (100 : Word) ≤ start.params.holdThreshold ∧
    start.params.holdThreshold < 2101 - (100 : Word) := by decide

/-- The line pressed since a reset 30 passes ago, at a poll pass past the lockout. -/
def pressedSinceReset (input : Input) : State :=
  { State.atReset params true with tick := 29, btnLastPoll := 20, env := [input] }

theorem pressedSinceReset_holds (input : Input) : (pressedSinceReset input).PressedSinceReset :=
  ⟨rfl, rfl, rfl, rfl⟩

theorem witness_LinePressedAtResetIsNoPress :
    (nextInput (pressedSinceReset (.command 0x0E00000000)) = .command 0x0E00000000 ∧
      ∃ t, step (pressedSinceReset (.command 0x0E00000000)) = .next t) ∧
    nextInput (pressedSinceReset (.tick true)) =
      .tick (pressedSinceReset (.tick true)).params.pressedLevel ∧
    ∃ t, step (pressedSinceReset (.tick true)) = .next t :=
  ⟨⟨rfl, _, rfl⟩, rfl, _, rfl⟩

/-- A command and 24 strobes: one strobe short of the 25 of the lockout. -/
theorem witness_StartUpLockout :
    (Input.command 0x0400000000 :: List.replicate 24 (.tick true)).all isRunInput = true ∧
    (Input.command 0x0400000000 :: List.replicate 24 (.tick true)).countP isTickInput <
      params.debounceWindow.toNat := by decide

/-- `pressed` at the pass before a poll, presented a strobe at the given level. -/
def pressedAt (tick : Word) (level : Bool) : State :=
  { pressed with tick := tick, btnLastPoll := tick - 9, env := [.tick level] }

/-- The third clause with a click at once, and with a click-free pass between; the fourth with the
release of a press in progress. -/
theorem witness_ResetClickCountClearsTheCount :
    (0x0EFFFFFFFF : Cmd).extractLsb' 32 8 = 0x0E ∧
    (∃ t, exec .resetClickCount (pressedAt 129 false) = .next t ∧ ClicklessRun t t ∧
      ∃ v, step t = .next v ∧ IsClick t v) ∧
    (∃ t u, exec .resetClickCount (pressedAt 129 true) = .next t ∧ step t = .next u ∧
      ClicklessRun t u) ∧
    pressed.params.Legal ∧ pressed.btnState = .pressed ∧
    pressed.btnPrev = pressed.params.pressedLevel ∧
    pressed.params.debounceWindow ≤ 125 - pressed.btnLastChange :=
  ⟨by decide, ⟨_, rfl, .none _, _, rfl, ⟨false, by decide⟩, by decide, by decide⟩,
    ⟨_, _, rfl, rfl, .more (.none _) rfl fun h => absurd h.2.2 (by decide)⟩,
    by decide, by decide, by decide, by decide⟩

theorem witness_SkippedWaveUpdateChangesNothing :
    ({ start with wavePeriod := 0 } : State).wavePeriod = 0 ∧
    (2 : Word) - start.waveLastUpdate < 3 ∧
    (waving.wavePeriod ≠ 0 ∧ waving.params.waveMinUpdateInterval ≤ 1 - waving.waveLastUpdate) ∧
    (3 : Word) ≤ 3 - start.waveLastUpdate := by decide

theorem witness_PhaseAndDutiesOfAWaveUpdate :
    waving.wavePeriod ≠ 0 ∧ waving.params.waveMinUpdateInterval ≤ 1 - waving.waveLastUpdate ∧
    3 < waving.params.nCh := by decide

theorem witness_PerTickComparator :
    waving.wavePeriod ≠ 0 ∧ waving.params.waveMinUpdateInterval ≤ 1 - waving.waveLastUpdate ∧
    waving.params.carrierMode = .perTick ∧ 3 < waving.params.nCh := by decide

/-- `waving` with the per-channel carrier. -/
def wavingPerChannel : State :=
  { waving with params := { params with carrierMode := .perChannel } }

theorem witness_PerChannelComparator :
    wavingPerChannel.wavePeriod ≠ 0 ∧
    wavingPerChannel.params.waveMinUpdateInterval ≤ 1 - wavingPerChannel.waveLastUpdate ∧
    wavingPerChannel.params.carrierMode = .perChannel ∧ wavingPerChannel.pwmStep.toNat < 100 ∧
    3 < wavingPerChannel.params.nCh := by decide

theorem witness_WaveUpdateFrame : start.params.nCh ≤ 4 := by decide

theorem witness_ChannelIsOnForItsDutyShare :
    waving.Inv ∧ waving.waveActive = true ∧ waving.wavePeriod ≠ 0 ∧ waving.waveSpeed = 0 ∧
    waving.params.waveMinUpdateInterval = 0 ∧ waving.params.carrierMode = .perTick ∧
    3 < waving.params.nCh :=
  ⟨waving_inv, by decide, by decide, by decide, by decide, by decide, by decide⟩

theorem witness_PhaseAfterPasses :
    (∃ t, exec .startWave start = .next t) ∧ start.wavePeriod ≠ 0 ∧
    start.params.waveMinUpdateInterval = 0 := ⟨⟨_, rfl⟩, by decide, by decide⟩

theorem witness_StartAndStopWave : waving.waveActive = true ∧ start.waveActive = false := by decide

theorem witness_DutyIsTheNearestInteger :
    (1 ≤ 1 ∧ 1 < 2 ^ 32 ∧ 0 < 1) ∧
    (1 ≤ 2 ^ 32 - 1 ∧ 2 ^ 32 - 1 < 2 ^ 32 ∧ 2 ^ 32 - 2 < 2 ^ 32 - 1) := by decide

theorem witness_DutyRangeAndQuarters : dutyFn 1 0 = 50 ∧ dutyFn 4 1 = 100 ∧ dutyFn 4 3 = 0 := by decide

theorem witness_DutySymmetries : (4 < 5 ∧ 0 < 5) ∧ (7 < 2 * 4 ∧ 0 < 2 * 4) := by decide

theorem witness_OppositeChannelsSumToHundred :
    waving.params.nCh = 4 ∧ waving.wavePeriod ≠ 0 ∧ waving.wavePeriod.toNat % 4 = 0 ∧
    waving.params.waveMinUpdateInterval ≤ 1 - waving.waveLastUpdate := by decide

/-- The quarter-wave statement at the edges of its three clauses (45_duty_rom.md R240). -/
theorem witness_QuarterWaveTable :
    dutyFn 1500 0 = 50 ∧ dutyFn 1500 375 = 100 ∧ dutyFn 1500 376 = 100 ∧ dutyFn 1500 750 = 50 ∧
    dutyFn 1500 751 = 50 ∧ dutyFn 1500 1499 = 50 := by decide

theorem witness_ChaseStep :
    4 - chasing.seqLastStep < chasing.seqStep ∧ chasing.seqStep ≤ 5 - chasing.seqLastStep := by decide

theorem witness_StopSequenceAndQuery : chasing.seqActive = true ∧ start.seqActive = false := by decide

theorem witness_ChaseSchedule :
    (∃ t, exec (.startSequence 1) waving = .next t) ∧ 1 ≤ (1 : Word).toNat := ⟨⟨_, rfl⟩, by decide⟩

theorem witness_SetModeCommand :
    3 ≤ (3 : Word).toNat ∧ (2 : Word) = chasing.mode.code ∧ chasing.mode ≠ .static ∧
    chasing.mode ≠ .pwm ∧ waving.mode ≠ .sequence ∧ waving.mode ≠ .static := by decide

theorem witness_LedWriteCommand :
    (start.waveActive = false ∧ start.seqActive = false) ∧ waving.waveActive = true ∧
    chasing.seqActive = true := by decide

theorem witness_ReservedAndNopDoNothing :
    (0x00FFFFFFFF : Cmd).extractLsb' 32 8 = 0x00 ∧
    0x13 ≤ ((0x1300000000 : Cmd).extractLsb' 32 8).toNat ∧
    0x13 ≤ ((0xFFFFFFFFFF : Cmd).extractLsb' 32 8).toNat := by decide

theorem witness_QueriesAndRepeatedCommands :
    (∃ t, exec (.getDuty 5) start = .next t) ∧ ∃ t, exec (.ledWrite 6 true) start = .next t :=
  ⟨⟨_, rfl⟩, _, rfl⟩

theorem witness_CommandsLeaveThePassRegisters :
    (∃ t, exec .startWave start = .next t) ∧ Instr.startWave ≠ .resetClickCount := ⟨⟨_, rfl⟩, by decide⟩

theorem witness_SettingsHaveOneWriter :
    (∃ t, step (given (.command 0x0200000002)) = .next t) ∧
    (∀ level, nextInput (given (.command 0x0200000002)) ≠ .reset level) ∧
    ∀ w v, nextInput (given (.command 0x0200000002)) = .command w →
      decode w ≠ .setWaveSpeed v ∧ decode w ≠ .setWavePeriod v ∧ decode w ≠ .startSequence v := by
  refine ⟨⟨_, rfl⟩, ⟨fun level h => Input.noConfusion h, fun w v h => ?_⟩⟩
  obtain rfl := Input.command.inj h
  rw [show decode 0x0200000002 = .setMode 2 by decide]
  exact ⟨by simp, by simp, by simp⟩

theorem witness_OwnerChangeForcesOutputsOff :
    chasing.Inv ∧ ∃ t, exec .stopSequence chasing = .next t ∧ t.mode ≠ chasing.mode :=
  ⟨chasing_inv, _, rfl, by decide⟩

theorem witness_OnlyTheOwnerWritesTheOutputs :
    chasing.Inv ∧ ∃ t, exec (.ledWrite 0 true) chasing = .next t ∧ t.mode = chasing.mode ∧
      chasing.mode ≠ .static ∧ chasing.mode ≠ .pwm ∧ ∀ v, Instr.ledWrite 0 true ≠ .startSequence v :=
  ⟨chasing_inv, _, rfl, by decide, by decide, by decide, by simp⟩

end Sys2Proof.Tests
end

section
/-! Proofs about what the environment presents to a step (20_memory.md R66): the head of a schedule that
holds an input, a free input where it holds none. -/

namespace Sys2Proof.Machine

theorem nextInput_of_env_cons {s : State} {i : Input} {rest : List Input} (h : s.env = i :: rest) :
    nextInput s = i := by rw [nextInput, h]

theorem takeInput_of_env_cons {s : State} {i : Input} {rest : List Input} (h : s.env = i :: rest) :
    takeInput s = { s with env := rest } := by rw [takeInput, h]

theorem nextInput_of_env_nil {s : State} (h : s.env = []) :
    nextInput s = Config.freeInput s.draws := by rw [nextInput, h]

theorem takeInput_of_env_nil {s : State} (h : s.env = []) :
    takeInput s = { s with draws := s.draws + 1 } := by rw [takeInput, h]

/-- A step depends on its state only through the input it takes and the state left once it is taken. -/
theorem step_congr {s t : State} (hnext : nextInput s = nextInput t) (htake : takeInput s = takeInput t) :
    step s = step t := by rw [step, step, hnext, htake]

/-- Settles O6: both states of the second clause take the free input and leave the same state. -/
theorem stepRunsThePassOfAStrobe : Obligations.StepRunsThePassOfAStrobe := by
  refine ⟨fun s level rest hstrobe => ?_, fun s hempty => step_congr ?_ ?_⟩
  · rw [step_tick (nextInput_of_env_cons hstrobe), takeInput_of_env_cons hstrobe]
  · rw [nextInput_of_env_nil hempty, nextInput_of_env_cons rfl]
  · rw [takeInput_of_env_nil hempty, takeInput_of_env_cons rfl, ← hempty]

end Sys2Proof.Machine
end

section
/-! What a step can do: the three kinds of input (20_memory.md R66), what taking one leaves, and which
command writes which setting (10_state.md R28, R32, R33, R39). -/

namespace Sys2Proof.Machine

/-- A step is a pass, a command or a reset (00_scope.md R6). -/
theorem step_cases {s t : State} (h : step s = .next t) :
    (∃ level, nextInput s = .tick level ∧ t = tickPass level (takeInput s)) ∨
    (∃ w, nextInput s = .command w ∧ exec (decode w) (takeInput s) = .next t) ∨
    (∃ level, nextInput s = .reset level ∧ t = resetStep level (takeInput s)) := by
  cases hi : nextInput s with
  | tick level =>
    rw [step_tick hi] at h
    cases h
    exact .inl ⟨level, rfl, rfl⟩
  | command w => exact .inr (.inl ⟨w, rfl, step_command hi ▸ h⟩)
  | reset level =>
    rw [step_reset hi] at h
    cases h
    exact .inr (.inr ⟨level, rfl, rfl⟩)

@[simp] theorem takeInput_params (s : State) : (takeInput s).params = s.params := by
  rw [takeInput_frame]

@[simp] theorem takeInput_btnState (s : State) : (takeInput s).btnState = s.btnState := by
  rw [takeInput_frame]

@[simp] theorem takeInput_waveSpeed (s : State) : (takeInput s).waveSpeed = s.waveSpeed := by
  rw [takeInput_frame]

@[simp] theorem takeInput_wavePeriod (s : State) : (takeInput s).wavePeriod = s.wavePeriod := by
  rw [takeInput_frame]

@[simp] theorem takeInput_seqStep (s : State) : (takeInput s).seqStep = s.seqStep := by
  rw [takeInput_frame]

/-- A mode switch leaves the click count and the three settings: it restarts the chase with the stored
step (44_mode_outputs.md R211). -/
theorem setMode_frame (v : Word) (s : State) :
    let t := setMode v s
    t = { s with
      waveActive := t.waveActive, wavePhase := t.wavePhase, waveLastUpdate := t.waveLastUpdate
      seqActive := t.seqActive, seqCur := t.seqCur, seqLastStep := t.seqLastStep, out := t.out } := by
  rcases setMode_cases v s with h | ⟨-, -, h⟩ | ⟨-, -, h⟩ | ⟨-, -, h⟩ <;> rw [h]
  · rw [stopBoth_eq]
  · rw [startWave_eq]
  · rw [startSequence_eq]

/-- The click count and the settings have one command each that writes them (10_state.md R28, R32, R33,
R39). -/
theorem exec_settings_of_ne {i : Instr} {s t : State} (h : exec i s = .next t) :
    (i ≠ .resetClickCount → t.clicks = s.clicks) ∧
    ((∀ v, i ≠ .setWaveSpeed v) → t.waveSpeed = s.waveSpeed) ∧
    ((∀ v, i ≠ .setWavePeriod v) → t.wavePeriod = s.wavePeriod) ∧
    ((∀ v, i ≠ .startSequence v) → t.seqStep = s.seqStep) := by
  cases i <;> cases h
  case resetClickCount =>
    exact ⟨fun hi => absurd rfl hi, fun _ => rfl, fun _ => rfl, fun _ => rfl⟩
  case setWaveSpeed v =>
    exact ⟨fun _ => rfl, fun hi => absurd rfl (hi v), fun _ => rfl, fun _ => rfl⟩
  case setWavePeriod v =>
    exact ⟨fun _ => rfl, fun _ => rfl, fun hi => absurd rfl (hi v), fun _ => rfl⟩
  case startSequence v =>
    exact ⟨fun _ => rfl, fun _ => rfl, fun _ => rfl, fun hi => absurd rfl (hi v)⟩
  case' setMode v => rw [setMode_frame]
  case' stopWave => rw [stopWave]; split
  case' stopSequence => rw [stopSequence]; split
  case' ledWrite ch val => split
  all_goals exact ⟨fun _ => rfl, fun _ => rfl, fun _ => rfl, fun _ => rfl⟩

end Sys2Proof.Machine
end

section
/-! Proofs of 10_state.md R46: the invariants hold at reset, and each part of a pass, each command and
each reset keeps them. -/

namespace Sys2Proof.Machine

/-! ### The output word -/

theorem channelBit_toNat_lt {i n : Nat} (h : i < n) : (channelBit i).toNat < 2 ^ n := by
  rw [channelBit, BitVec.toNat_twoPow]
  exact (Nat.mod_le _ _).trans_lt (Nat.pow_lt_pow_right (by decide) h)

/-- The output word is below 2^n when no line from n up is on (10_state.md R41). -/
theorem out_lt_iff_ledOut (s : State) (n : Nat) :
    s.out.toNat < 2 ^ n ↔ ∀ i, n ≤ i → s.ledOut i = false :=
  ⟨fun h _ hi => Nat.testBit_lt_two_pow (h.trans_le (Nat.pow_le_pow_right (by decide) hi)),
    Nat.lt_pow_two_of_testBit _⟩

/-- Writing a line below n keeps the word below 2^n. -/
theorem setOut_out_lt {s : State} {i n : Nat} (b : Bool) (hi : i < n) (h32 : i < 32)
    (h : s.out.toNat < 2 ^ n) : (s.setOut i b).out.toNat < 2 ^ n := by
  rw [out_lt_iff_ledOut] at h ⊢
  intro j hj
  by_cases hj32 : j < 32
  · rw [ledOut_setOut s i j b h32 hj32, if_neg (by omega), h j hj]
  · exact ledOut_of_le _ j (by omega)

/-- The chase step on a one-hot word: the lit channel goes off and the next one on
(43_sequencer.md R190). -/
theorem setOut_off_on_of_oneHot {s : State} {i : Nat} (j : Nat) (h : s.out = channelBit i) :
    ((s.setOut i false).setOut j true).out = channelBit j := by
  simp [h]

/-! ### Reset -/

theorem inv_atReset (p : Params) (level : Bool) : (State.atReset p level).Inv where
  clicks := Nat.zero_le _
  duty := fun d hd => by rw [List.eq_of_mem_replicate hd]; decide
  file := List.length_replicate
  carrier := Nat.zero_lt_succ _
  current := p.nCh_pos
  engines := fun h => Bool.false_ne_true h.1
  chase := nofun
  lines := Nat.two_pow_pos _

/-- Settles O10: every item of the reset state is 0, off or inactive. -/
theorem resetSatisfiesInvariants : Obligations.ResetSatisfiesInvariants := inv_atReset

namespace State.Inv

variable {s : State}

protected theorem takeInput (hs : s.Inv) : (takeInput s).Inv := by
  rw [takeInput_frame]
  exact { hs with }

protected theorem resetStep (s : State) (level : Bool) : (resetStep level s).Inv :=
  { inv_atReset s.params level with }

/-! ### The parts of a pass -/

/-- The count stays in bounds up to the auto reset: only a click writes it (41_button.md R124, R125). -/
protected theorem senseLevel_clicks (hs : s.Inv) (sample : Bool) (now : Word) :
    (senseLevel sample now s).clicks.toNat ≤ s.params.maxClicks.toNat := by
  rcases senseLevel_cases sample now s with
    ⟨-, h⟩ | ⟨-, -, h⟩ | ⟨-, -, -, h⟩ | ⟨-, -, -, -, h⟩ | ⟨-, -, -, -, h⟩ <;> rw [h]
  case inr.inr.inr.inl =>
    refine incClicks_le _ _ ?_
    split
    · exact hs.clicks
    · exact Nat.zero_le _
  all_goals exact hs.clicks

protected theorem buttonUpdate (hs : s.Inv) (sample : Bool) (now : Word) :
    (buttonUpdate sample now s).Inv := by
  have hc := hs.senseLevel_clicks sample now
  rw [buttonUpdate_of_senseLevel, senseLevel_frame]
  refine { hs with clicks := ?_ }
  show BitVec.toNat (ite _ _ _) ≤ _
  split
  · exact Nat.zero_le _
  · exact hc

protected theorem pollButton (hs : s.Inv) (level : Bool) (now : Word) :
    (pollButton level now s).Inv := by
  cases hd : pollDue now s with
  | true =>
    rw [pollButton_of_due level hd]
    exact Inv.buttonUpdate (s := { s with btnLastPoll := now }) { hs with } level now
  | false => rwa [pollButton_of_not_due level hd]

protected theorem updateDuties (hs : s.Inv) : (updateDuties s).Inv :=
  { hs with
    file := length_updateDuties s
    duty := fun d hd => by
      obtain ⟨i, -, rfl⟩ := List.mem_map.mp hd
      rw [BitVec.toNat_ofNat, Nat.mod_eq_of_lt (dutyFn_lt_128 _ _)]
      exact dutyFn_le_hundred _ _ }

/-- The comparator may write any line below `N_CH`: no chase is on in PWM mode. -/
protected theorem driveOutputs (hs : s.Inv) (hw : s.waveActive = true) : (driveOutputs s).Inv := by
  obtain ⟨heq, hled⟩ := driveOutputs_frame s
  have hcarrier := driveOutputs_pwmStep_lt s hs.carrier
  have hlines : (driveOutputs s).out.toNat < 2 ^ s.params.nCh := by
    rw [out_lt_iff_ledOut]
    exact fun i hi => (hled i hi).trans ((out_lt_iff_ledOut s _).mp hs.lines i hi)
  rw [heq]
  exact { hs with
    carrier := hcarrier
    chase := fun hq => absurd ⟨hw, hq⟩ hs.engines
    lines := hlines }

protected theorem waveUpdate (hs : s.Inv) (hw : s.waveActive = true) (now : Word) :
    (waveUpdate now s).Inv := by
  cases hk : waveUpdateSkipped now s with
  | true => rwa [waveUpdate_of_skipped hk]
  | false =>
    rw [waveUpdate_of_runs hk]
    exact Inv.driveOutputs (Inv.updateDuties { hs with }) hw

protected theorem seqUpdate (hs : s.Inv) (hq : s.seqActive = true) (now : Word) :
    (seqUpdate now s).Inv := by
  cases hd : seqStepDue now s with
  | false => rwa [seqUpdate_of_not_due hd]
  | true =>
    have hnext : (nextChannel s).toNat < s.params.nCh :=
      nextChannel_toNat s ▸ Nat.mod_lt _ s.params.nCh_pos
    rw [seqUpdate_of_due hd, setOut_off_on_of_oneHot _ (hs.chase hq)]
    exact { hs with
      current := hnext
      chase := fun _ => rfl
      lines := channelBit_toNat_lt hnext }

protected theorem runEngine (hs : s.Inv) (now : Word) : (runEngine now s).Inv := by
  cases hw : s.waveActive with
  | true => exact runEngine_wave now hw ▸ hs.waveUpdate hw now
  | false =>
    cases hq : s.seqActive with
    | true => exact runEngine_sequence now hw hq ▸ hs.seqUpdate hq now
    | false => rwa [runEngine_static now hw hq]

protected theorem tickPass (hs : s.Inv) (level : Bool) : (tickPass level s).Inv := by
  rw [tickPass_eq]
  exact Inv.runEngine (Inv.pollButton (s := advanceTick s) { hs with } level _) _

/-! ### The commands -/

protected theorem startWave (hs : s.Inv) : (startWave s).Inv :=
  { hs with
    engines := fun h => Bool.false_ne_true h.2
    chase := nofun
    lines := Nat.two_pow_pos _ }

protected theorem startSequence (hs : s.Inv) (v : Word) : (startSequence v s).Inv := by
  rw [startSequence_eq]
  exact { hs with
    current := s.params.nCh_pos
    engines := fun h => Bool.false_ne_true h.1
    chase := fun _ => rfl
    lines := Nat.one_lt_two_pow s.params.nCh_pos.ne' }

protected theorem stopWave (hs : s.Inv) : (stopWave s).Inv := by
  cases hw : s.waveActive with
  | false => rwa [stopWave_of_inactive hw]
  | true =>
    rw [stopWave_of_active hw]
    exact { hs with
      engines := fun h => Bool.false_ne_true h.1
      chase := fun hq => absurd ⟨hw, hq⟩ hs.engines
      lines := Nat.two_pow_pos _ }

protected theorem stopSequence (hs : s.Inv) : (stopSequence s).Inv := by
  cases hq : s.seqActive with
  | false => rwa [stopSequence_of_inactive hq]
  | true =>
    rw [stopSequence_of_active hq]
    exact { hs with
      engines := fun h => Bool.false_ne_true h.2
      chase := nofun
      lines := Nat.two_pow_pos _ }

protected theorem setMode (hs : s.Inv) (v : Word) : (setMode v s).Inv := by
  rcases setMode_cases v s with h | ⟨-, -, h⟩ | ⟨-, -, h⟩ | ⟨-, -, h⟩ <;> rw [h]
  · exact hs
  · exact hs.stopWave.stopSequence
  · exact hs.startWave
  · exact hs.startSequence _

/-- Manual control writes a line below `N_CH`, and no chase is on in STATIC mode
(44_mode_outputs.md R213). -/
protected theorem setOut_of_static (hs : s.Inv) (hm : s.mode = .static) (ch : BitVec 16) (b : Bool) :
    (s.setOut (channelOperand s ch) b).Inv :=
  { hs with
    chase := fun hq => absurd hq (by simp [((mode_static_iff s).mp hm).2])
    lines := setOut_out_lt b (channelOperand_lt s ch) (channelOperand_lt_32 s ch) hs.lines }

/-- Every command keeps the invariants; the response is in none of them. -/
protected theorem exec {i : Instr} {t : State} (hs : s.Inv) (h : exec i s = .next t) : t.Inv := by
  cases i <;> cases h
  case setMode v => exact { hs.setMode v with }
  case startWave => exact { hs.startWave with }
  case stopWave => exact { hs.stopWave with }
  case startSequence v => exact { hs.startSequence v with }
  case stopSequence => exact { hs.stopSequence with }
  case resetClickCount => exact { hs with clicks := Nat.zero_le _ }
  case ledWrite ch val =>
    split
    next hm => exact { hs.setOut_of_static hm ch val with }
    next => exact { hs with }
  all_goals exact { hs with }

end State.Inv

/-- Settles O11, by the kind of the step: each part of a pass and each command keeps the invariants, and
a reset establishes them. -/
theorem stepPreservesInvariants : Obligations.StepPreservesInvariants := by
  intro s t hs h
  rcases step_cases h with ⟨level, -, rfl⟩ | ⟨w, -, hexec⟩ | ⟨level, -, rfl⟩
  · exact hs.takeInput.tickPass level
  · exact hs.takeInput.exec hexec
  · exact .resetStep _ level

end Sys2Proof.Machine
end

section
/-! Proofs about who writes a register: the parameters, the settings, the registers of a pass
(10_state.md R22 to R41, R47), and the reset table (R48). -/

namespace Sys2Proof.Machine

/-- Settles O8, by the kind of the step. -/
theorem parametersNeverChange : Obligations.ParametersNeverChange := by
  intro s t h
  rcases step_cases h with ⟨level, -, rfl⟩ | ⟨w, -, hexec⟩ | ⟨level, -, rfl⟩
  · rw [tickPass_frame, ← takeInput_params s]
  · rw [exec_frame hexec, ← takeInput_params s]
  · exact takeInput_params s

/-- Settles O57: the frame of a command, and the one writer of the click count. -/
theorem commandsLeaveThePassRegisters : Obligations.CommandsLeaveThePassRegisters := by
  intro i s t h
  obtain ⟨hclicks, -⟩ := exec_settings_of_ne h
  rw [exec_frame h]
  exact ⟨rfl, rfl, rfl, rfl, rfl, rfl, rfl, rfl, rfl, rfl, rfl, rfl, hclicks⟩

/-- Settles O58: a pass writes no setting, and each has one command that writes it. -/
theorem settingsHaveOneWriter : Obligations.SettingsHaveOneWriter := by
  intro s t h hreset
  rcases step_cases h with ⟨level, -, rfl⟩ | ⟨w, hw, hexec⟩ | ⟨level, hr, -⟩
  · rw [tickPass_frame]
    exact ⟨fun _ => takeInput_waveSpeed s, fun _ => takeInput_wavePeriod s,
      fun _ => takeInput_seqStep s⟩
  · obtain ⟨-, hspeed, hperiod, hstep⟩ := exec_settings_of_ne hexec
    rw [takeInput_waveSpeed] at hspeed
    rw [takeInput_wavePeriod] at hperiod
    rw [takeInput_seqStep] at hstep
    exact ⟨fun hi => hspeed fun v => hi w v hw, fun hi => hperiod fun v => hi w v hw,
      fun hi => hstep fun v => hi w v hw⟩
  · exact absurd hr (hreset level)

/-- Settles O9: a reset step overwrites every register with that of the reset state. -/
theorem resetEstablishesTheResetTable : Obligations.ResetEstablishesTheResetTable := by
  refine ⟨fun s level rest henv => ⟨_, step_reset (nextInput_of_env_cons henv), ?_⟩, ?_⟩
  · simp [resetStep, State.atReset, State.mode]
  · simp [State.reset, State.atReset, State.mode, Params.reference, Params.nCh, List.replicate]

end Sys2Proof.Machine
end

section
/-! Proofs about the button registers: the way into Held (10_state.md R46 item 8), and the register that
nothing reads (R23). -/

namespace Sys2Proof.Machine

/-- A button update enters Held only by the hold test, which asks for Pressed or Held
(41_button.md R126). -/
theorem buttonUpdate_heldOnlyFromPress (sample : Bool) (now : Word) (s : State) :
    HeldOnlyFromPress s (buttonUpdate sample now s) := by
  intro hheld
  rw [buttonUpdate_of_senseLevel] at hheld
  rcases senseLevel_cases sample now s with
    ⟨-, h⟩ | ⟨-, -, h⟩ | ⟨-, -, -, h⟩ | ⟨-, -, -, -, h⟩ | ⟨-, -, -, -, h⟩ <;> rw [h] at hheld
  · cases hh : holdReached sample now s with
    | true =>
      obtain ⟨-, hstate, -⟩ := (holdReached_iff sample now s).mp hh
      exact hstate
    | false =>
      rw [hh] at hheld
      exact .inr hheld
  · exact .inr hheld
  all_goals cases hheld

theorem pollButton_heldOnlyFromPress (level : Bool) (now : Word) (s : State) :
    HeldOnlyFromPress s (pollButton level now s) := by
  cases hd : pollDue now s with
  | true =>
    rw [pollButton_of_due level hd]
    exact buttonUpdate_heldOnlyFromPress level now { s with btnLastPoll := now }
  | false =>
    rw [pollButton_of_not_due level hd]
    exact .inr

/-- Settles O12: only the poll of a pass enters Held. -/
theorem heldIsNeverEnteredFromReleased : Obligations.HeldIsNeverEnteredFromReleased := by
  intro s t h hheld
  rw [← takeInput_btnState s]
  rcases step_cases h with ⟨level, -, rfl⟩ | ⟨w, -, hexec⟩ | ⟨level, -, rfl⟩
  · obtain ⟨-, -, hstate, -⟩ := tickPass_button level (takeInput s)
    exact pollButton_heldOnlyFromPress level _ (advanceTick (takeInput s)) (hstate ▸ hheld)
  · rw [exec_frame hexec] at hheld
    exact .inr hheld
  · cases hheld

/-! ### BTN_RAW -/

/-- `s` with another value in `BTN_RAW` (10_state.md R23). -/
def State.withRaw (s : State) (raw : Bool) : State := { s with btnRaw := raw }

theorem nextInput_withRaw (s : State) (raw : Bool) : nextInput (s.withRaw raw) = nextInput s := rfl

theorem takeInput_withRaw (s : State) (raw : Bool) :
    takeInput (s.withRaw raw) = (takeInput s).withRaw raw := by
  cases h : s.env with
  | nil => rw [takeInput_of_env_nil h, takeInput_of_env_nil (s := s.withRaw raw) h]; rfl
  | cons i rest => rw [takeInput_of_env_cons h, takeInput_of_env_cons (s := s.withRaw raw) h]; rfl

/-- A poll pass overwrites `BTN_RAW` with the sample before anything else (41_button.md R120). -/
theorem pollButton_withRaw (level : Bool) (now : Word) (s : State) (raw : Bool) :
    ∃ raw', pollButton level now (s.withRaw raw) = (pollButton level now s).withRaw raw' := by
  cases hd : pollDue now s with
  | true =>
    refine ⟨(pollButton level now s).btnRaw, ?_⟩
    rw [pollButton_of_due level hd, pollButton_of_due (s := s.withRaw raw) level hd]
    rfl
  | false =>
    refine ⟨raw, ?_⟩
    rw [pollButton_of_not_due level hd, pollButton_of_not_due (s := s.withRaw raw) level hd]

theorem runEngine_withRaw (now : Word) (s : State) (raw : Bool) :
    runEngine now (s.withRaw raw) = (runEngine now s).withRaw raw :=
  (runEngine_unread now s s.tick raw s.btnPrev s.btnState s.btnLastChange s.btnLastClick s.clicks
    s.btnLastPoll).trans (by rw [runEngine_frame]; rfl)

theorem tickPass_withRaw (level : Bool) (s : State) (raw : Bool) :
    ∃ raw', tickPass level (s.withRaw raw) = (tickPass level s).withRaw raw' := by
  obtain ⟨raw', h⟩ := pollButton_withRaw level (s.tick + 1) (advanceTick s) raw
  exact ⟨raw', (congrArg (runEngine (s.tick + 1)) h).trans (runEngine_withRaw ..)⟩

theorem stopWave_withRaw (s : State) (raw : Bool) :
    stopWave (s.withRaw raw) = (stopWave s).withRaw raw := by
  cases h : s.waveActive with
  | true => rw [stopWave_of_active h, stopWave_of_active (s := s.withRaw raw) h]; rfl
  | false => rw [stopWave_of_inactive h, stopWave_of_inactive (s := s.withRaw raw) h]

theorem stopSequence_withRaw (s : State) (raw : Bool) :
    stopSequence (s.withRaw raw) = (stopSequence s).withRaw raw := by
  cases h : s.seqActive with
  | true => rw [stopSequence_of_active h, stopSequence_of_active (s := s.withRaw raw) h]; rfl
  | false => rw [stopSequence_of_inactive h, stopSequence_of_inactive (s := s.withRaw raw) h]

theorem switchMode_withRaw (m : Mode) (s : State) (raw : Bool) :
    switchMode m (s.withRaw raw) = (switchMode m s).withRaw raw := by
  cases m with
  | static =>
    show stopSequence (stopWave (s.withRaw raw)) = (stopSequence (stopWave s)).withRaw raw
    rw [stopWave_withRaw, stopSequence_withRaw]
  | pwm => rfl
  | sequence => rfl

theorem setMode_withRaw (v : Word) (s : State) (raw : Bool) :
    setMode v (s.withRaw raw) = (setMode v s).withRaw raw := by
  rw [setMode, setMode, show (s.withRaw raw).mode = s.mode from rfl]
  cases modeOfOperand v with
  | none => rfl
  | some m =>
    by_cases hm : m = s.mode
    · simp only [if_pos hm]
    · simp only [if_neg hm, switchMode_withRaw]

/-- No command reads or writes `BTN_RAW`. -/
theorem exec_withRaw {i : Instr} {s t : State} (h : exec i s = .next t) (raw : Bool) :
    exec i (s.withRaw raw) = .next (t.withRaw raw) := by
  cases i <;> cases h
  case setMode v => exact congrArg (answer 0) (setMode_withRaw v s raw)
  case stopWave => exact congrArg (answer 0) (stopWave_withRaw s raw)
  case stopSequence => exact congrArg (answer 0) (stopSequence_withRaw s raw)
  case ledWrite ch val =>
    show answer 0 (if s.mode = .static then _ else _) = _
    split <;> rfl
  all_goals rfl

/-- Settles O13: a pass leaves `BTN_RAW` or overwrites it, a command leaves it and a reset overwrites
it. -/
theorem nothingReadsTheRawLevel : Obligations.NothingReadsTheRawLevel := by
  intro s raw
  show ∃ t raw', step s = .next t ∧ step (s.withRaw raw) = .next (t.withRaw raw')
  have hnext := nextInput_withRaw s raw
  cases hi : nextInput s with
  | tick level =>
    obtain ⟨raw', h⟩ := tickPass_withRaw level (takeInput s) raw
    exact ⟨_, raw', step_tick hi, by rw [step_tick (hnext.trans hi), takeInput_withRaw, h]⟩
  | command w =>
    obtain ⟨v, u, h⟩ := exec_answers (decode w) (takeInput s)
    refine ⟨_, raw, (step_command hi).trans h, ?_⟩
    rw [step_command (hnext.trans hi), takeInput_withRaw]
    exact exec_withRaw h raw
  | reset level =>
    refine ⟨_, level, step_reset hi, ?_⟩
    rw [step_reset (hnext.trans hi), takeInput_withRaw]
    rfl

end Sys2Proof.Machine
end

section
/-! Proofs of 20_memory.md R64 and R67: a query changes at most the response, a command issued twice in
a row acts once, and a pass runs its parts in order. -/

namespace Sys2Proof.Machine

/-! ### Queries and repeated commands -/

/-- A command that only answers changes nothing but the response (30_encoding.md R83). -/
theorem eq_of_answer {v : Word} {s t : State} (h : answer v s = .next t) :
    t = { s with resp := t.resp } := by
  cases h
  rfl

/-- A command without effect on a state that holds its response already answers that state. -/
theorem answer_of_fixed {v : Word} {s t : State} (hs : s = t) (hresp : t.resp = v) :
    answer v s = .next t := by
  rw [hs, answer_next, ← hresp]

/-- Writing a level to a line a second time changes nothing. -/
theorem setOut_setOut_same (s : State) (i : Nat) (b : Bool) :
    (s.setOut i b).setOut i b = s.setOut i b := by
  cases b with
  | false => simp [State.setOut, BitVec.and_assoc]
  | true => simp [State.setOut, BitVec.or_assoc]

theorem stopWave_waveActive (s : State) : (stopWave s).waveActive = false := by
  cases h : s.waveActive with
  | true => rw [stopWave_of_active h]
  | false => rw [stopWave_of_inactive h, h]

theorem stopSequence_seqActive (s : State) : (stopSequence s).seqActive = false := by
  cases h : s.seqActive with
  | true => rw [stopSequence_of_active h]
  | false => rw [stopSequence_of_inactive h, h]

/-- A mode switch leads to the mode it names (44_mode_outputs.md R211). -/
theorem switchMode_mode (m : Mode) (s : State) : (switchMode m s).mode = m := by
  cases m with
  | static =>
    rw [mode_static_iff, switchMode, stopBoth_eq]
    exact ⟨rfl, rfl⟩
  | pwm => rfl
  | sequence => rfl

/-- After `SET_MODE` the machine is in the mode its operand names, if it names one
(44_mode_outputs.md R211). -/
theorem setMode_mode {v : Word} {m : Mode} (h : modeOfOperand v = some m) (s : State) :
    (setMode v s).mode = m := by
  simp only [setMode, h]
  split
  next hm => exact hm.symm
  next => exact switchMode_mode m s

/-- `SET_MODE` does nothing in the mode its operand names, or where it names none
(44_mode_outputs.md R211). -/
theorem setMode_of_mode {v : Word} {s : State} (h : ∀ m, modeOfOperand v = some m → s.mode = m) :
    setMode v s = s := by
  rw [setMode]
  split
  next => rfl
  next m hm => exact if_pos (h m hm).symm

/-- Manual control writes the same line to the same level in the same mode (44_mode_outputs.md R213). -/
theorem execLedWrite_twice {ch : BitVec 16} {val : Bool} {s t : State}
    (h : execLedWrite ch val s = .next t) : execLedWrite ch val t = .next t := by
  by_cases hm : s.mode = .static
  · rw [execLedWrite, if_pos hm] at h
    cases h
    refine answer_of_fixed ((if_pos hm).trans ?_) rfl
    exact congrArg (fun u : State => { u with resp := 0 })
      (setOut_setOut_same s (channelOperand s ch) val)
  · rw [execLedWrite, if_neg hm] at h
    cases h
    exact answer_of_fixed (if_neg hm) rfl

/-- A command issued again at once answers the state it has left (20_memory.md R64): the stops and the
mode switch find nothing to do, and every other command writes the same values again. -/
theorem exec_twice {i : Instr} {s t : State} (h : exec i s = .next t) : exec i t = .next t := by
  cases i
  case ledWrite ch val => exact execLedWrite_twice h
  all_goals cases h
  case setMode v => exact answer_of_fixed (setMode_of_mode fun _ hm => setMode_mode hm s) rfl
  case stopWave => exact answer_of_fixed (stopWave_of_inactive (stopWave_waveActive s)) rfl
  case stopSequence => exact answer_of_fixed (stopSequence_of_inactive (stopSequence_seqActive s)) rfl
  all_goals rfl

/-- Settles O56: a query only answers, and a repeated command has nothing left to change. -/
theorem queriesAndRepeatedCommands : Obligations.QueriesAndRepeatedCommands := by
  refine ⟨fun i s t hi h => ?_, fun i s t => exec_twice⟩
  rcases hi with rfl | rfl | rfl | rfl | rfl | rfl | rfl | rfl | ⟨ch, rfl⟩ | rfl <;>
    exact eq_of_answer h

/-! ### The order inside a pass -/

/-- The poll test as 40_tick_dispatch.md R103 spells it. -/
theorem pollButton_eq_ite (btnIn : Bool) (now : Word) (s : State) :
    pollButton btnIn now s = if s.params.buttonPollInterval ≤ now - s.btnLastPoll
      then buttonUpdate btnIn now { s with btnLastPoll := now } else s := by
  rw [← elapsed_eq]
  split
  next h => exact pollButton_of_due btnIn ((pollDue_iff now s).mpr h)
  next h => exact pollButton_of_not_due btnIn (Bool.eq_false_iff.mpr (mt (pollDue_iff now s).mp h))

/-- Settles O15: the engine runs on what the poll left, and the poll on the advanced clock. -/
theorem passRunsItsPartsInOrder : Obligations.PassRunsItsPartsInOrder := by
  intro level s
  rw [tickPass_eq, pollButton_eq_ite]
  rfl

end Sys2Proof.Machine
end

section
/-! Facts about the decoder and the encoder (30_encoding.md R80 to R89): the fields of a masked word, the
rows of the opcode table, and what the decoder answers. -/

namespace Sys2Proof

/-! ### The fields of a masked word (30_encoding.md R82) -/

theorem cmdOp_and (v w : Cmd) : cmdOp (v &&& w) = cmdOp v &&& cmdOp w := BitVec.extractLsb'_and

/-- Masking a word masks its opcode and its operand. -/
theorem and_cmdWord (w : Cmd) (m : Opcode) (n : Word) :
    w &&& cmdWord m n = cmdWord (cmdOp w &&& m) (cmdArg w &&& n) := by
  rw [← Laws.EncodesInRow.cmdWord_and, cmdWord_cmdOp_cmdArg]

/-- A mask that keeps the opcode masks the operand. -/
theorem and_cmdWord_allOnes (w : Cmd) (n : Word) :
    w &&& cmdWord 0xFF n = cmdWord (cmdOp w) (cmdArg w &&& n) := by
  rw [and_cmdWord, show (0xFF : Opcode) = BitVec.allOnes 8 by decide, BitVec.and_allOnes]

theorem getLsbD_and_lowMask (v : Word) (n i : Nat) (hi : i < 32) :
    (v &&& BitVec.ofNat 32 (2 ^ n - 1)).getLsbD i = (decide (i < n) && v.getLsbD i) := by
  rw [BitVec.getLsbD_and, BitVec.getLsbD_ofNat, Nat.testBit_two_pow_sub_one]
  simp [hi, Bool.and_comm]

theorem cmdArg_and_chMask (w : Cmd) : cmdArg w &&& 0x0000FFFF = argCh (cmdChannel w) := by
  apply BitVec.eq_of_getLsbD_eq
  intro i hi
  rw [show (0x0000FFFF : Word) = BitVec.ofNat 32 (2 ^ 16 - 1) by decide, getLsbD_and_lowMask _ _ _ hi,
    getLsbD_argCh, cmdArg, cmdChannel, BitVec.getLsbD_extractLsb', BitVec.getLsbD_extractLsb']
  simp [hi]

theorem cmdArg_and_chvMask (w : Cmd) :
    cmdArg w &&& 0x0001FFFF = argChv (cmdChannel w) (cmdValue w) := by
  apply BitVec.eq_of_getLsbD_eq
  intro i hi
  rw [show (0x0001FFFF : Word) = BitVec.ofNat 32 (2 ^ 17 - 1) by decide, getLsbD_and_lowMask _ _ _ hi,
    getLsbD_argChv, cmdArg, cmdChannel, cmdValue, BitVec.getLsbD_extractLsb', BitVec.getLsbD_extractLsb']
  split
  next h => simp [hi, h, show i < 17 by omega]
  next h =>
    split
    next h16 => simp [h16]
    next => simp [show ¬ i < 17 by omega]

/-- The bits the form `none` reads. -/
theorem and_noneBits (w : Cmd) : w &&& 0xFF00000000 = cmdWord (cmdOp w) 0 := by
  rw [show (0xFF00000000 : Cmd) = cmdWord 0xFF 0 by decide, and_cmdWord_allOnes]
  exact congrArg _ BitVec.and_zero

/-- The bits the form `U32` reads. -/
theorem and_u32Bits (w : Cmd) : w &&& 0xFFFFFFFFFF = cmdWord (cmdOp w) (cmdArg w) := by
  rw [cmdWord_cmdOp_cmdArg]
  exact BitVec.and_allOnes

/-- The bits the form `CH` reads. -/
theorem and_chBits (w : Cmd) :
    w &&& 0xFF0000FFFF = cmdWord (cmdOp w) (argCh (cmdChannel w)) := by
  rw [show (0xFF0000FFFF : Cmd) = cmdWord 0xFF 0x0000FFFF by decide, and_cmdWord_allOnes,
    cmdArg_and_chMask]

/-- The bits the form `CHV` reads. -/
theorem and_chvBits (w : Cmd) :
    w &&& 0xFF0001FFFF = cmdWord (cmdOp w) (argChv (cmdChannel w) (cmdValue w)) := by
  rw [show (0xFF0001FFFF : Cmd) = cmdWord 0xFF 0x0001FFFF by decide, and_cmdWord_allOnes,
    cmdArg_and_chvMask]

theorem cmdOp_eq_of_and_noneBits_eq {v w : Cmd} (h : v &&& 0xFF00000000 = w &&& 0xFF00000000) :
    cmdOp v = cmdOp w := by
  rw [and_noneBits, and_noneBits] at h
  simpa using congrArg cmdOp h

/-- Every form reads the opcode. -/
theorem usedBits_and_noneBits (i : Instr) : i.usedBits &&& 0xFF00000000 = 0xFF00000000 := by
  cases i <;> simp only [Instr.usedBits] <;> decide

/-- No row tests a bit its form ignores (30_encoding.md R84). -/
theorem usedBits_and_rowMask (i : Instr) : i.usedBits &&& i.rowMask = i.rowMask := by
  cases i <;> simp only [Instr.usedBits, Instr.rowMask] <;> decide

/-! ### The rows of the opcode table (30_encoding.md R84, R85) -/

/-- Every command's word lies in its row: the family `EncodesInRow` as one statement. -/
theorem encodesInRow (i : Instr) : Laws.EncodesInRow.Statement i := by
  open Laws.EncodesInRow in
  cases i
  exacts [nop, getTick, setMode _, getMode, startWave, stopWave, setWaveSpeed _, setWavePeriod _,
    getWaveActive, startSequence _, stopSequence, getSeqActive, getButtonState, getClickCount,
    resetClickCount, ledWrite _ _, getOutputs, getPhase, getDuty _, reserved13, reserved14 _,
    reserved18 _, reserved20 _, reserved40 _, reserved80 _]

/-- From 0x13 up every opcode is reserved. -/
theorem decode_of_reserved {w : Cmd} (h : 0x13 ≤ (cmdOp w).toNat) :
    decode w = decodeReserved (cmdOp w) := by
  have hne : ∀ op : Opcode, op.toNat < 0x13 → cmdOp w ≠ op := by
    rintro op hop rfl
    omega
  simp (disch := decide) only [decode, if_neg, hne]

/-- The reserved rows exclude each other: an opcode of one decodes to that row's command. -/
theorem decodeReserved_of_wellFormed : ∀ op : Opcode,
    ∀ i ∈ [Instr.reserved14 op, .reserved18 op, .reserved20 op, .reserved40 op, .reserved80 op],
      i.wellFormed = true → 0x13 ≤ op.toNat ∧ decodeReserved op = i := by
  decide +kernel

/-- Which row a word decodes in depends on its opcode alone, and so does its form (30_encoding.md R82). -/
theorem decode_row_congr {v w : Cmd} (h : cmdOp v = cmdOp w) :
    (decode v).rowMatch = (decode w).rowMatch ∧ (decode v).usedBits = (decode w).usedBits := by
  simp only [decode, h, apply_ite Instr.rowMatch, apply_ite Instr.usedBits]
  exact ⟨rfl, rfl⟩

/-! ### What the decoder answers -/

/-- `i` is what the bits of `w` that its form does not ignore say (30_encoding.md R82, R89). -/
def Instr.ReadFrom (i : Instr) (w : Cmd) : Prop :=
  i.wellFormed = true ∧ encode i = w &&& i.usedBits

theorem decodeReserved_readFrom {w : Cmd} (h : 0x13 ≤ (cmdOp w).toNat) :
    (decodeReserved (cmdOp w)).ReadFrom w := by
  refine ⟨decodeReserved_wellFormed _ h, ?_⟩
  have hw := (and_noneBits w).symm
  rw [decodeReserved]
  split
  next h13 => exact (congrArg (cmdWord · 0) h13.symm).trans hw
  repeat' split
  all_goals exact hw

/-- One row of the decoder: the command of the row, or what the rows after it answer. -/
theorem ite_readFrom {w : Cmd} {op : Opcode} {i rest : Instr} (hi : i.wellFormed = true)
    (hrow : cmdOp w = op → encode i = w &&& i.usedBits) (hrest : cmdOp w ≠ op → rest.ReadFrom w) :
    Instr.ReadFrom (if cmdOp w = op then i else rest) w := by
  split
  next h => exact ⟨hi, hrow h⟩
  next h => exact hrest h

/-- The decoder goes through the nineteen defined rows; what none of them takes is reserved. -/
theorem decode_readFrom (w : Cmd) : (decode w).ReadFrom w := by
  rw [decode]
  iterate 19
    refine ite_readFrom rfl (fun hop => ?_) fun _ => ?_
    · simp only [encode, Instr.usedBits, and_noneBits, and_u32Bits, and_chBits, and_chvBits, hop]
  exact decodeReserved_readFrom (by bv_omega)

end Sys2Proof
end

section
/-! Proofs of 30_encoding.md R80 to R89: the two round trips, the one row of every word, the reserved
commands, and the step that is presented a command word. -/

namespace Sys2Proof

open Machine

/-! ### The round trips -/

theorem decode_cmdWord_reserved {op : Opcode} {i : Instr} (arg : Word)
    (h : 0x13 ≤ op.toNat ∧ decodeReserved op = i) : decode (cmdWord op arg) = i := by
  obtain ⟨hop, hi⟩ := h
  rw [decode_of_reserved (by rwa [cmdOp_cmdWord]), cmdOp_cmdWord, hi]

theorem decode_encode {i : Instr} (hi : i.wellFormed = true) : decode (encode i) = i := by
  cases i
  case reserved13 => exact decode_cmdWord_reserved 0 ⟨by decide, rfl⟩
  case reserved14 op | reserved18 op | reserved20 op | reserved40 op | reserved80 op =>
    exact decode_cmdWord_reserved 0 (decodeReserved_of_wellFormed op _ (by simp) hi)
  all_goals simp [encode, decode]

/-- Settles O1: the decoder finds the row by the opcode and reads back the operand the row's form holds. -/
theorem decodeOfEncode : Obligations.DecodeOfEncode := fun _ => decode_encode

/-- Two words that agree on the bits the form of one reads are the same command: they have one opcode, so
one form, and then one encoding. -/
theorem decode_eq_of_and_usedBits_eq {v w : Cmd}
    (h : v &&& (decode w).usedBits = w &&& (decode w).usedBits) : decode v = decode w := by
  have hop : cmdOp v = cmdOp w := cmdOp_eq_of_and_noneBits_eq <| by
    rw [← usedBits_and_noneBits (decode w), ← BitVec.and_assoc, h, BitVec.and_assoc]
  obtain ⟨-, hbits⟩ := decode_row_congr hop
  obtain ⟨hv, hencv⟩ := decode_readFrom v
  obtain ⟨hw, hencw⟩ := decode_readFrom w
  calc decode v = decode (encode (decode v)) := (decode_encode hv).symm
    _ = decode (encode (decode w)) := by rw [hencv, hbits, h, hencw]
    _ = decode w := decode_encode hw

/-- Settles O2: the decoder answers what the bits a form reads say, and no other bit decides. -/
theorem encodeOfDecode : Obligations.EncodeOfDecode :=
  ⟨fun w => (decode_readFrom w).2, fun _ _ s h => congrArg (exec · s) (decode_eq_of_and_usedBits_eq h)⟩

/-! ### One row for every word -/

/-- A word lies in the row of the command it decodes to. -/
theorem decode_in_row (w : Cmd) : w &&& (decode w).rowMask = (decode w).rowMatch := by
  obtain ⟨hwf, henc⟩ := decode_readFrom w
  obtain ⟨hrow, -⟩ := encodesInRow (decode w) hwf
  rw [← hrow, henc, BitVec.and_assoc, usedBits_and_rowMask]

/-- A word with the opcode of a command's encoding decodes in that command's row. -/
theorem rowMatch_decode {i : Instr} {w : Cmd} (hi : i.wellFormed = true)
    (hop : cmdOp (encode i) = cmdOp w) : i.rowMatch = (decode w).rowMatch := by
  rw [← (decode_row_congr hop).1, decode_encode hi]

/-- A row that tests the whole opcode takes only words that decode in it. -/
theorem rowMatch_decode_of_exact {i : Instr} {w : Cmd} (hi : i.wellFormed = true)
    (hmask : i.rowMask = 0xFF00000000) (h : w &&& i.rowMask = i.rowMatch) :
    i.rowMatch = (decode w).rowMatch := by
  obtain ⟨hrow, -⟩ := encodesInRow i hi
  refine rowMatch_decode hi (cmdOp_eq_of_and_noneBits_eq ?_)
  rw [← hmask, h, hrow]

/-- A row that tests a part of the opcode takes a word by its opcode. -/
theorem cmdOp_inRow {w : Cmd} {mask value : Opcode} (h : w &&& cmdWord mask 0 = cmdWord value 0) :
    (cmdOp w).inRow mask value = true := by
  have hop := congrArg cmdOp h
  rw [cmdOp_and, cmdOp_cmdWord, cmdOp_cmdWord] at hop
  rw [Opcode.inRow, hop, beq_self_eq_true]

/-- A word lies in one row only. A reserved row tests a part of the opcode: there the row's command that
keeps the word's own opcode is well-formed. -/
theorem rowMatch_decode_of_row (i : Instr) {w : Cmd} (h : w &&& i.rowMask = i.rowMatch) :
    i.rowMatch = (decode w).rowMatch := by
  have hop : cmdOp (cmdWord (cmdOp w) 0) = cmdOp w := cmdOp_cmdWord ..
  cases i
  case reserved14 =>
    exact rowMatch_decode (i := .reserved14 (cmdOp w)) (cmdOp_inRow (mask := 0xFC) (value := 0x14) h) hop
  case reserved18 =>
    exact rowMatch_decode (i := .reserved18 (cmdOp w)) (cmdOp_inRow (mask := 0xF8) (value := 0x18) h) hop
  case reserved20 =>
    exact rowMatch_decode (i := .reserved20 (cmdOp w)) (cmdOp_inRow (mask := 0xE0) (value := 0x20) h) hop
  case reserved40 =>
    exact rowMatch_decode (i := .reserved40 (cmdOp w)) (cmdOp_inRow (mask := 0xC0) (value := 0x40) h) hop
  case reserved80 =>
    exact rowMatch_decode (i := .reserved80 (cmdOp w)) (cmdOp_inRow (mask := 0x80) (value := 0x80) h) hop
  all_goals exact rowMatch_decode_of_exact rfl rfl h

/-- Settles O3: the decoder's answer is well-formed and its row takes the word; no other row does. -/
theorem everyWordMatchesExactlyOneRow : Obligations.EveryWordMatchesExactlyOneRow := fun w =>
  ⟨(decode_readFrom w).1, decode_in_row w, fun i => rowMatch_decode_of_row i⟩

/-! ### Reserved commands, and steps on a command word -/

theorem exec_decodeReserved (op : Opcode) (s : State) :
    exec (decodeReserved op) s = .next { s with resp := 0 } := by
  rw [decodeReserved]
  repeat' split
  all_goals rfl

/-- Settles O55: opcode 0 is `NOP`, and each reserved command only answers. -/
theorem reservedAndNopDoNothing : Obligations.ReservedAndNopDoNothing := by
  refine ⟨fun w s h => ?_, fun _ _ => ⟨rfl, rfl, rfl, rfl, rfl, rfl, rfl⟩⟩
  change cmdOp w = 0x00 ∨ 0x13 ≤ (cmdOp w).toNat at h
  rcases h with hnop | hres
  · rw [decode, if_pos hnop]
    rfl
  · rw [decode_of_reserved hres]
    exact exec_decodeReserved _ s

/-- Settles O4: the words are closed, so the decoder is run on them. -/
theorem specWordsDecode : Obligations.SpecWordsDecode := by
  unfold Obligations.SpecWordsDecode
  decide

theorem decodeTableWord_eq_some {nbits w : Nat} {i : Instr} (h : decodeTableWord nbits w = some i) :
    decode (tableWord nbits w) = i := by
  rw [decodeTableWord] at h
  split at h
  · exact Option.some.inj h
  · cases h

theorem step_of_env_command {s : State} {w : Cmd} {rest : List Input} (h : s.env = .command w :: rest) :
    step s = exec (decode w) { s with env := rest } := by
  rw [step_command (nextInput_of_env_cons h), takeInput_of_env_cons h]

/-- Settles O5: presenting a word puts it at the head of the schedule, and the step takes it off again. -/
theorem stepRunsTheDecodedCommand : Obligations.StepRunsTheDecodedCommand := by
  refine ⟨fun _ _ _ => step_of_env_command, fun s nbits w i h => ?_⟩
  rw [← decodeTableWord_eq_some h]
  exact step_of_env_command rfl

end Sys2Proof
end

section
/-! Proofs about the clock (40_tick_dispatch.md R101, R105, R107): a pass advances `TICK` by one, no
command writes it, and a run advances it once per strobe. -/

namespace Sys2Proof.Machine

@[simp] theorem tickPass_tick (level : Bool) (s : State) : (tickPass level s).tick = s.tick + 1 := by
  rw [tickPass_frame]

@[simp] theorem tickPass_env (level : Bool) (s : State) : (tickPass level s).env = s.env := by
  rw [tickPass_frame]

theorem exec_tick {i : Instr} {s t : State} (h : exec i s = .next t) : t.tick = s.tick := by
  rw [exec_frame h]

theorem exec_env {i : Instr} {s t : State} (h : exec i s = .next t) : t.env = s.env := by
  rw [exec_frame h]

/-- Settles O14: the clock is the first part of a pass, and no command's frame holds it. -/
theorem tickAdvancesOncePerPass : Obligations.TickAdvancesOncePerPass := by
  refine ⟨fun s level => tickPass_tick level s, fun s level hmax => ?_, fun _ _ _ => exec_tick⟩
  rw [tickPass_tick, hmax]
  decide

/-- Settles O20: each query answers the register or the mode's code, which is the choice R42 makes. -/
theorem tickAndModeQueries : Obligations.TickAndModeQueries := by
  refine fun s => ⟨rfl, ?_⟩
  have hcode : s.mode.code =
      if s.waveActive = true then 1 else if s.seqActive = true then 2 else 0 := by
    rw [State.mode, apply_ite Mode.code, apply_ite Mode.code]
    rfl
  rw [← hcode]
  rfl

/-- A step on a strobe or a command takes it off the schedule, and advances `TICK` exactly for a
strobe (40_tick_dispatch.md R101). -/
theorem step_runInput {s : State} {i : Input} {rest : List Input} (henv : s.env = i :: rest)
    (hi : isRunInput i = true) :
    ∃ t, step s = .next t ∧ t.env = rest ∧
      t.tick = s.tick + BitVec.ofNat 32 (if isTickInput i then 1 else 0) := by
  have hnext := nextInput_of_env_cons henv
  have htake := takeInput_of_env_cons henv
  cases i with
  | tick level =>
    rw [step_tick hnext, htake]
    exact ⟨_, rfl, tickPass_env .., tickPass_tick ..⟩
  | command w =>
    rw [step_command hnext, htake]
    obtain ⟨v, u, h⟩ := exec_answers (decode w) { s with env := rest }
    exact ⟨_, h, exec_env h, (exec_tick h).trans (BitVec.add_zero _).symm⟩
  | reset level => cases hi

/-- A run of strobes and commands takes them off the schedule, and advances `TICK` by the number of
strobes modulo 2^32. -/
theorem run_runInputs {inputs rest : List Input} {s : State} (henv : s.env = inputs ++ rest)
    (hrun : inputs.all isRunInput = true) :
    ∃ t, core.run inputs.length s = .next t ∧ t.env = rest ∧
      t.tick = s.tick + BitVec.ofNat 32 (inputs.countP isTickInput) := by
  induction inputs generalizing s with
  | nil => exact ⟨s, rfl, henv, (BitVec.add_zero _).symm⟩
  | cons i inputs ih =>
    rw [List.all_cons, Bool.and_eq_true] at hrun
    obtain ⟨hi, hinputs⟩ := hrun
    obtain ⟨u, hstep, huenv, hutick⟩ := step_runInput henv hi
    obtain ⟨t, hsteps, htenv, httick⟩ := ih huenv hinputs
    refine ⟨t, (run_succ_of_next _ hstep).trans hsteps, htenv, ?_⟩
    rw [httick, hutick, List.countP_cons, BitVec.add_assoc, ← BitVec.ofNat_add, Nat.add_comm]

/-- Settles O16: the run advances `TICK` by the number of strobes, and the difference of two words is
taken modulo 2^32. -/
theorem elapsedTimeLaw : Obligations.ElapsedTimeLaw := by
  intro s inputs rest henv hrun
  obtain ⟨t, hsteps, htenv, httick⟩ := run_runInputs henv hrun
  refine ⟨t, hsteps, htenv, httick, ?_⟩
  rw [httick, ← elapsed_eq, elapsed_add_ofNat, BitVec.toNat_ofNat]

end Sys2Proof.Machine
end

section
/-! Proofs about what a pass leaves unchanged: the button registers where it does not poll
(40_tick_dispatch.md R103), the registers of the engine that does not run (R104), and the outputs but
for the engine that owns them (44_mode_outputs.md R210, R216). -/

namespace Sys2Proof.Machine

/-- A pass that does not poll is the clock and the engine (40_tick_dispatch.md R103). -/
theorem tickPass_of_not_due {s : State} (level : Bool) (h : pollDue (s.tick + 1) s = false) :
    tickPass level s = runEngine (s.tick + 1) (advanceTick s) := by
  rw [tickPass_eq, pollButton_of_not_due (s := advanceTick s) level h]

/-- Settles O17: a pass that does not poll never mentions the level, and an engine writes no button
register. -/
theorem buttonUnseenBetweenPolls : Obligations.ButtonUnseenBetweenPolls := by
  intro a b s hearly
  have hdue : pollDue (s.tick + 1) s = false :=
    Bool.eq_false_iff.mpr fun h => BitVec.not_le.mpr hearly ((pollDue_iff _ s).mp h)
  rw [tickPass_of_not_due a hdue, tickPass_of_not_due b hdue, runEngine_frame]
  exact ⟨rfl, rfl, rfl, rfl, rfl, rfl, rfl, rfl⟩

/-- Without an active wave the engine of a pass writes the chase and the outputs at most. -/
theorem runEngine_frame_of_no_wave (now : Word) {s : State} (hw : s.waveActive = false) :
    let t := runEngine now s
    t = { s with seqCur := t.seqCur, seqLastStep := t.seqLastStep, out := t.out } := by
  rcases Bool.eq_false_or_eq_true s.seqActive with hq | hq
  · rw [runEngine_sequence now hw hq, seqUpdate_frame]
  · rw [runEngine_static now hw hq]

/-- With an active wave, or no chase, the engine of a pass leaves the chase. -/
theorem runEngine_chase (now : Word) {s : State} (h : s.waveActive = true ∨ s.seqActive = false) :
    (runEngine now s).seqCur = s.seqCur ∧ (runEngine now s).seqLastStep = s.seqLastStep := by
  cases hw : s.waveActive with
  | true =>
    rw [runEngine_wave now hw, waveUpdate_frame]
    exact ⟨rfl, rfl⟩
  | false =>
    rw [runEngine_static now hw (h.resolve_left (by simp [hw]))]
    exact ⟨rfl, rfl⟩

/-- The outputs of a pass are those of the engine that the mode names (44_mode_outputs.md R210, R216). -/
theorem tickPass_out (level : Bool) (s : State) :
    (tickPass level s).out = match s.mode with
      | .static => s.out
      | .pwm => (waveUpdate (s.tick + 1) s).out
      | .sequence => (seqUpdate (s.tick + 1) s).out := by
  have hengine : (tickPass level s).out = (runEngine (s.tick + 1) s).out := by rw [tickPass_engine]
  rw [hengine]
  cases hm : s.mode with
  | static =>
    obtain ⟨hw, hq⟩ := (mode_static_iff s).mp hm
    rw [runEngine_static _ hw hq]
  | pwm => rw [runEngine_wave _ ((mode_pwm_iff s).mp hm)]
  | sequence =>
    obtain ⟨hw, hq⟩ := (mode_sequence_iff s).mp hm
    rw [runEngine_sequence _ hw hq]

/-- Settles O18: the frame of every pass, and then that of the engine that runs. -/
theorem passFrame : Obligations.PassFrame := by
  intro level s t
  have hframe : t = _ := tickPass_frame level s
  have hengine : t = _ := tickPass_engine level s
  have hout : t.out = _ := tickPass_out level s
  have hwave (hw : s.waveActive = false) : t.wavePhase = s.wavePhase ∧
      t.waveLastUpdate = s.waveLastUpdate ∧ t.duty = s.duty ∧ t.pwmStep = s.pwmStep := by
    rw [hengine, runEngine_frame_of_no_wave _ hw]
    exact ⟨rfl, rfl, rfl, rfl⟩
  have hchase (h : s.waveActive = true ∨ s.seqActive = false) :
      t.seqCur = s.seqCur ∧ t.seqLastStep = s.seqLastStep := by
    rw [hengine]
    exact runEngine_chase _ h
  have hstatic (hm : s.mode = .static) : t.out = s.out := by rw [hout, hm]
  have hmode : t.mode = s.mode := by rw [hframe]; rfl
  refine ⟨?_, ?_, hmode, ?_, ?_, ?_, ?_, ?_, ?_, ?_, hwave, hchase, hstatic⟩ <;> rw [hframe]

/-! ### Commands that keep the mode -/

/-- A stop of the wave that keeps the mode had nothing to stop (42_pwm_wave.md R161). -/
theorem stopWave_of_mode_eq {s : State} (h : (stopWave s).mode = s.mode) : stopWave s = s := by
  cases hw : s.waveActive with
  | false => exact stopWave_of_inactive hw
  | true =>
    have hactive := (mode_pwm_iff _).mp (h.trans ((mode_pwm_iff s).mpr hw))
    exact absurd hactive (by simp [stopWave_waveActive])

/-- A stop of the chase that keeps the mode had nothing to stop: no wave hides a chase
(43_sequencer.md R192, 10_state.md R46 item 6). -/
theorem stopSequence_of_mode_eq {s : State} (hs : s.Inv) (h : (stopSequence s).mode = s.mode) :
    stopSequence s = s := by
  cases hq : s.seqActive with
  | false => exact stopSequence_of_inactive hq
  | true =>
    have hw : s.waveActive = false := Bool.eq_false_iff.mpr fun hw => hs.engines ⟨hw, hq⟩
    obtain ⟨-, hactive⟩ := (mode_sequence_iff _).mp (h.trans ((mode_sequence_iff s).mpr ⟨hw, hq⟩))
    exact absurd hactive (by simp [stopSequence_seqActive])

/-- `SET_MODE` keeps the mode only by doing nothing (44_mode_outputs.md R211). -/
theorem setMode_of_mode_eq {v : Word} {s : State} (h : (setMode v s).mode = s.mode) :
    setMode v s = s :=
  setMode_of_mode fun _ hm => h.symm.trans (setMode_mode hm s)

/-- A command that keeps the mode writes the outputs only as the mode's owner does: the stops and the
mode switch do nothing then, and a start leads to its own mode. -/
theorem exec_out_of_mode_eq {i : Instr} {s t : State} (hs : s.Inv) (h : exec i s = .next t)
    (hmode : t.mode = s.mode) (hled : ∀ ch val, s.mode = .static → i ≠ .ledWrite ch val)
    (hwave : s.mode = .pwm → i ≠ .startWave)
    (hseq : ∀ v, s.mode = .sequence → i ≠ .startSequence v) : t.out = s.out := by
  cases i <;> cases h
  case setMode v => exact (congrArg State.out (setMode_of_mode_eq (v := v) (s := s) hmode) :)
  case stopWave => exact (congrArg State.out (stopWave_of_mode_eq (s := s) hmode) :)
  case stopSequence => exact (congrArg State.out (stopSequence_of_mode_eq hs hmode) :)
  case startWave => exact absurd rfl (hwave hmode.symm)
  case startSequence v => exact absurd rfl (hseq v hmode.symm)
  case ledWrite ch val =>
    split
    next hm => exact absurd rfl (hled ch val hm)
    next => rfl
  all_goals rfl

/-- Settles O60: a pass by the mode's engine, a command by the mode it keeps. -/
theorem onlyTheOwnerWritesTheOutputs : Obligations.OnlyTheOwnerWritesTheOutputs :=
  ⟨tickPass_out, fun _ _ _ => exec_out_of_mode_eq⟩

end Sys2Proof.Machine
end

section
/-! Proofs that the button reaches no output and no engine (40_tick_dispatch.md R100, R104, 41_button.md
R120): passes and commands from two states that differ only in the button registers. -/

namespace Sys2Proof.Machine

/-- `s` with the seven button registers of `o` (10_state.md R23 to R29). -/
def State.withButton (s o : State) : State := { s with
  btnRaw := o.btnRaw, btnPrev := o.btnPrev, btnState := o.btnState
  btnLastChange := o.btnLastChange, btnLastClick := o.btnLastClick, clicks := o.clicks
  btnLastPoll := o.btnLastPoll }

theorem runEngine_withButton (now : Word) (s o : State) :
    runEngine now (s.withButton o) = (runEngine now s).withButton o :=
  (runEngine_unread now s s.tick ..).trans (by rw [runEngine_frame]; rfl)

/-- A pass differs only in the button registers, whatever level it sees: its engine reads none of
them. -/
theorem tickPass_withButton (a b : Bool) (s o : State) :
    tickPass b (s.withButton o) = (tickPass a s).withButton (tickPass b (s.withButton o)) := by
  have hother := tickPass_engine b (s.withButton o)
  have hengine := runEngine_withButton (s.tick + 1) s o
  calc tickPass b (s.withButton o)
    _ = { ((runEngine (s.tick + 1) s).withButton o).withButton (tickPass b (s.withButton o)) with
          tick := s.tick + 1 } := hengine ▸ hother
    _ = (tickPass a s).withButton (tickPass b (s.withButton o)) := by rw [tickPass_engine a s]; rfl

theorem stopWave_withButton (s o : State) :
    stopWave (s.withButton o) = (stopWave s).withButton o := by
  rw [stopWave, stopWave, apply_ite (State.withButton · o)]
  rfl

theorem stopSequence_withButton (s o : State) :
    stopSequence (s.withButton o) = (stopSequence s).withButton o := by
  rw [stopSequence, stopSequence, apply_ite (State.withButton · o)]
  rfl

theorem setMode_withButton (v : Word) (s o : State) :
    setMode v (s.withButton o) = (setMode v s).withButton o := by
  have hswitch (m : Mode) : switchMode m (s.withButton o) = (switchMode m s).withButton o := by
    cases m with
    | static =>
      rw [switchMode, switchMode, stopWave_withButton, stopSequence_withButton]
    | pwm => rfl
    | sequence => rfl
  rw [setMode, setMode]
  cases modeOfOperand v with
  | none => rfl
  | some m =>
    dsimp only
    rw [hswitch, apply_ite (State.withButton · o)]
    rfl

/-- A command that is no button query differs only in the button registers: it reads none of them. -/
theorem exec_withButton {i : Instr} {s t : State} (h : exec i s = .next t) (o : State)
    (hstate : i ≠ .getButtonState) (hcount : i ≠ .getClickCount) :
    ∃ o', exec i (s.withButton o) = .next (t.withButton o') := by
  cases i <;> cases h
  case getButtonState => exact absurd rfl hstate
  case getClickCount => exact absurd rfl hcount
  case resetClickCount => exact ⟨{ o with clicks := 0 }, rfl⟩
  case setMode v => exact ⟨o, congrArg (answer 0) (setMode_withButton v s o)⟩
  case stopWave => exact ⟨o, congrArg (answer 0) (stopWave_withButton s o)⟩
  case stopSequence => exact ⟨o, congrArg (answer 0) (stopSequence_withButton s o)⟩
  case ledWrite ch val =>
    refine ⟨o, ?_⟩
    show answer 0 (if s.mode = .static then _ else _) = _
    split <;> rfl
  all_goals exact ⟨o, rfl⟩

/-- A button query differs in the button registers and the response (41_button.md R130, R131). -/
theorem eq_of_answer_withButton {v w : Word} {s o t u : State} (ht : answer v s = .next t)
    (hu : answer w (s.withButton o) = .next u) : u = { t.withButton u with resp := u.resp } := by
  cases ht
  cases hu
  rfl

/-- Commands from two states that differ only in the button registers agree on everything but those
and the response, and on the response too where they are no button query. -/
theorem exec_agrees_but_button {i : Instr} {s o t u : State} (ht : exec i s = .next t)
    (hu : exec i (s.withButton o) = .next u) :
    u = { t.withButton u with resp := u.resp } ∧
    (i ≠ .getButtonState → i ≠ .getClickCount → u.resp = t.resp) := by
  by_cases hquery : i = .getButtonState ∨ i = .getClickCount
  · rcases hquery with rfl | rfl
    · exact ⟨eq_of_answer_withButton ht hu, fun h => absurd rfl h⟩
    · exact ⟨eq_of_answer_withButton ht hu, fun _ h => absurd rfl h⟩
  · obtain ⟨hstate, hcount⟩ := not_or.mp hquery
    obtain ⟨o', h⟩ := exec_withButton ht o hstate hcount
    cases hu.symm.trans h
    exact ⟨rfl, fun _ _ => rfl⟩

/-- Settles O19: a state with other button registers is `withButton` of any state that holds them. -/
theorem buttonNeverReachesTheOutputs : Obligations.ButtonNeverReachesTheOutputs := by
  intro s raw prev state change click poll count other
  exact ⟨fun a b => tickPass_withButton a b s other,
    fun i t u ht hu => exec_agrees_but_button (o := other) ht hu⟩

end Sys2Proof.Machine
end

section
/-! The button update as one equation per case (41_button.md R120 to R127), the auto reset of R127
included, and what each of its registers is in terms of the sample and the times. -/

namespace Sys2Proof.Machine

/-! ### The stale-click auto reset (41_button.md R127) -/

/-- A last click of this very time is not stale: the test of R127 is strict. -/
@[simp] theorem clicksUnlessStale_now (p : Params) (now : Word) (c : BitVec 8) :
    clicksUnlessStale p now now c = c := by simp [clicksUnlessStale]

theorem clicksUnlessStale_of_off {p : Params} (h : p.clickAutoReset = false) (now lastClick : Word)
    (c : BitVec 8) : clicksUnlessStale p now lastClick c = c := by simp [clicksUnlessStale, h]

@[simp] theorem clicksUnlessStale_zero (p : Params) (now lastClick : Word) :
    clicksUnlessStale p now lastClick 0 = 0 := ite_self _

/-- An update is the part before the auto reset, with the count that the auto reset leaves. -/
theorem buttonUpdate_eq_clicksUnlessStale (sample : Bool) (now : Word) (s : State) :
    let t := senseLevel sample now s
    buttonUpdate sample now s =
      { t with clicks := clicksUnlessStale s.params now t.btnLastClick t.clicks } :=
  buttonUpdate_of_senseLevel sample now s

/-! ### The cases of an update -/

section updateCases
variable {sample : Bool} {now : Word} {s : State}

theorem debounceElapsed_of_le (h : s.params.debounceWindow ≤ now - s.btnLastChange) :
    debounceElapsed now s = true := (debounceElapsed_iff now s).mpr h

theorem debounceElapsed_of_lt (h : now - s.btnLastChange < s.params.debounceWindow) :
    debounceElapsed now s = false :=
  Bool.eq_false_iff.mpr fun hd => BitVec.not_le.mpr h ((debounceElapsed_iff now s).mp hd)

/-- An update that sees no change (41_button.md R126). -/
theorem buttonUpdate_of_same (h : sample = s.btnPrev) :
    buttonUpdate sample now s = { s with
      btnRaw := sample
      btnState := if holdReached sample now s then .held else s.btnState
      clicks := clicksUnlessStale s.params now s.btnLastClick s.clicks } := by
  rw [buttonUpdate_eq_clicksUnlessStale, senseLevel_of_same now h]

/-- An update that sees a change inside the lockout (41_button.md R121). -/
theorem buttonUpdate_of_ignored (h : sample ≠ s.btnPrev)
    (hd : now - s.btnLastChange < s.params.debounceWindow) :
    buttonUpdate sample now s = { s with
      btnRaw := sample
      clicks := clicksUnlessStale s.params now s.btnLastClick s.clicks } := by
  rw [buttonUpdate_eq_clicksUnlessStale, senseLevel_of_ignored h (debounceElapsed_of_lt hd)]

/-- An update that commits a press (41_button.md R123). -/
theorem buttonUpdate_of_press (h : sample ≠ s.btnPrev)
    (hd : s.params.debounceWindow ≤ now - s.btnLastChange) (hs : sample = s.params.pressedLevel) :
    buttonUpdate sample now s = { s with
      btnRaw := sample, btnPrev := sample, btnLastChange := now, btnState := .pressed
      clicks := clicksUnlessStale s.params now s.btnLastClick s.clicks } := by
  rw [buttonUpdate_eq_clicksUnlessStale, senseLevel_of_press h (debounceElapsed_of_le hd) hs]

theorem continuesSeries_iff (now : Word) (s : State) :
    continuesSeries now s = true ↔ now - s.btnLastClick < s.params.clickSeriesInterval :=
  decide_eq_true_iff

/-- The count after a click: the series it continues or starts, and its increment
(41_button.md R124, R125). -/
def clicksAfterClick (now : Word) (s : State) : BitVec 8 :=
  incClicks s.params.maxClicks (if continuesSeries now s then s.clicks else 0)

theorem clicksAfterClick_eq (now : Word) (s : State) :
    let series := if now - s.btnLastClick < s.params.clickSeriesInterval then s.clicks else 0
    clicksAfterClick now s = if series = s.params.maxClicks then 0 else series + 1 := by
  simp only [clicksAfterClick, incClicks, continuesSeries_iff]

/-- An update that commits a click, which the auto reset keeps (41_button.md R124, R127). -/
theorem buttonUpdate_of_click (h : sample ≠ s.btnPrev)
    (hd : s.params.debounceWindow ≤ now - s.btnLastChange) (hs : sample ≠ s.params.pressedLevel)
    (hp : s.btnState = .pressed) :
    buttonUpdate sample now s = { s with
      btnRaw := sample, btnPrev := sample, btnLastChange := now, btnState := .released
      btnLastClick := now, clicks := clicksAfterClick now s } := by
  rw [buttonUpdate_eq_clicksUnlessStale, senseLevel_of_click h (debounceElapsed_of_le hd) hs hp]
  dsimp only
  rw [clicksUnlessStale_now, clicksAfterClick]

/-- An update that commits a release that is no click (41_button.md R124). -/
theorem buttonUpdate_of_noClick (h : sample ≠ s.btnPrev)
    (hd : s.params.debounceWindow ≤ now - s.btnLastChange) (hs : sample ≠ s.params.pressedLevel)
    (hp : s.btnState ≠ .pressed) :
    buttonUpdate sample now s = { s with
      btnRaw := sample, btnPrev := sample, btnLastChange := now, btnState := .released
      clicks := clicksUnlessStale s.params now s.btnLastClick s.clicks } := by
  rw [buttonUpdate_eq_clicksUnlessStale, senseLevel_of_noClick h (debounceElapsed_of_le hd) hs hp]

/-- Every commit moves the two commit registers, whichever polarity it has (41_button.md R122). -/
theorem buttonUpdate_of_commit (h : sample ≠ s.btnPrev)
    (hd : s.params.debounceWindow ≤ now - s.btnLastChange) :
    (buttonUpdate sample now s).btnPrev = sample ∧ (buttonUpdate sample now s).btnLastChange = now := by
  by_cases hs : sample = s.params.pressedLevel
  · rw [buttonUpdate_of_press h hd hs]
    exact ⟨rfl, rfl⟩
  · by_cases hp : s.btnState = .pressed
    · rw [buttonUpdate_of_click h hd hs hp]
      exact ⟨rfl, rfl⟩
    · rw [buttonUpdate_of_noClick h hd hs hp]
      exact ⟨rfl, rfl⟩

/-- A held button is held until a commit, whether or not the hold test is met again
(41_button.md R126). -/
theorem buttonUpdate_of_same_held (h : sample = s.btnPrev) (hheld : s.btnState = .held) :
    (buttonUpdate sample now s).btnState = .held := by
  rw [buttonUpdate_of_same h, hheld]
  exact ite_self _

end updateCases

end Sys2Proof.Machine
end

section
/-! Proofs about one button update (41_button.md R120 to R127): each takes the update's case and reads
the registers off its equation. -/

namespace Sys2Proof.Machine

/-- Settles O21: neither the part before the auto reset nor the auto reset writes anything else. -/
theorem buttonUpdateFrame : Obligations.ButtonUpdateFrame := by
  intro sample now s
  rw [buttonUpdate_eq_clicksUnlessStale, senseLevel_frame]

/-- Settles O22: a commit, an ignored change, and no change. -/
theorem debounceLockout : Obligations.DebounceLockout := by
  refine fun sample now s => ⟨buttonUpdate_of_commit, fun h hd => ?_, fun h => ?_⟩
  · rw [buttonUpdate_of_ignored h hd]
    exact ⟨rfl, rfl, rfl, rfl, rfl, rfl⟩
  · rw [buttonUpdate_of_same h]
    exact ⟨rfl, rfl, rfl, rfl⟩

/-- Settles O23: the sample is the pressed level, so the commit is a press. -/
theorem pressCommit : Obligations.PressCommit := by
  intro now s t h hd
  have ht : t = _ := buttonUpdate_of_press h hd rfl
  rw [ht]
  exact ⟨rfl, rfl, rfl, rfl⟩

/-- Settles O24: the state before the commit decides whether the release is a click. -/
theorem releaseCommit : Obligations.ReleaseCommit := by
  intro now s t series h hd
  have hs : (!s.params.pressedLevel) ≠ s.params.pressedLevel := Bool.not_ne_self _
  by_cases hp : s.btnState = .pressed
  · have ht : t = _ := buttonUpdate_of_click h hd hs hp
    rw [ht]
    exact ⟨rfl, fun _ => ⟨rfl, clicksAfterClick_eq now s⟩, fun hn => absurd hp hn⟩
  · have ht : t = _ := buttonUpdate_of_noClick h hd hs hp
    rw [ht]
    exact ⟨rfl, fun hy => absurd hy hp, fun _ => ⟨rfl, rfl⟩⟩

/-- Settles O25: without a change the hold test decides; Held ends by a commit only, which would have
moved `BTN_PREV`. -/
theorem holdDetection : Obligations.HoldDetection := by
  refine fun sample now s => ⟨fun h hs hstate hlong => ?_, fun h hnot => ?_, fun hheld _ hprev => ?_⟩
  · rw [buttonUpdate_of_same h, (holdReached_iff sample now s).mpr ⟨hs, hstate, hlong⟩]
    rfl
  · rw [buttonUpdate_of_same h, Bool.eq_false_iff.mpr (mt (holdReached_iff sample now s).mp hnot)]
    rfl
  · by_cases h : sample = s.btnPrev
    · exact buttonUpdate_of_same_held h hheld
    · by_cases hd : s.params.debounceWindow ≤ now - s.btnLastChange
      · obtain ⟨hsample, -⟩ := buttonUpdate_of_commit h hd
        exact absurd (hsample.symm.trans hprev) h
      · rw [buttonUpdate_of_ignored h (BitVec.not_le.mp hd)]
        exact hheld

/-- The part of an update before the auto reset does not read whether the auto reset is on. -/
theorem senseLevel_withAutoReset (sample : Bool) (now : Word) (s : State) (on : Bool) :
    senseLevel sample now { s with params := { s.params with clickAutoReset := on } } =
      { senseLevel sample now s with params := { s.params with clickAutoReset := on } } := by
  rcases senseLevel_cases sample now s with
    ⟨h, e⟩ | ⟨h, hd, e⟩ | ⟨h, hd, hs, e⟩ | ⟨h, hd, hs, hp, e⟩ | ⟨h, hd, hs, hp, e⟩ <;> rw [e]
  · exact senseLevel_of_same now h
  · exact senseLevel_of_ignored h hd
  · exact senseLevel_of_press h hd hs
  · exact senseLevel_of_click h hd hs hp
  · exact senseLevel_of_noClick h hd hs hp

/-- Settles O26: with the auto reset off the update is its part before the auto reset, which is the
same; and a click of this update is not stale. -/
theorem staleClickAutoReset : Obligations.StaleClickAutoReset := by
  intro sample now s t u
  have hu : u = { senseLevel sample now s with
      params := { s.params with clickAutoReset := false } } := by
    show buttonUpdate _ _ _ = _
    rw [buttonUpdate_eq_clicksUnlessStale, senseLevel_withAutoReset]
    dsimp only
    rw [clicksUnlessStale_of_off rfl]
  have ht : t = { senseLevel sample now s with
      clicks := clicksUnlessStale s.params now u.btnLastClick u.clicks } := by
    rw [hu]
    exact buttonUpdate_eq_clicksUnlessStale sample now s
  refine ⟨by rw [ht], by rw [ht, hu], by rw [ht, hu], by rw [ht, hu], by rw [ht, hu], fun hnow => ?_⟩
  rw [ht, hnow]
  exact clicksUnlessStale_now ..

end Sys2Proof.Machine
end

section
/-! Proofs about several button updates in a row: a level is committed once, and a press and a release
make one click (41_button.md R128). -/

namespace Sys2Proof.Machine

/-- Settles O27: after the commit the sample is the committed level, so the later update sees no
change. -/
theorem commitHappensExactlyOnce : Obligations.CommitHappensExactlyOnce := by
  intro sample now later s h hd
  obtain ⟨hprev, hchange⟩ := buttonUpdate_of_commit h hd
  rw [buttonUpdate_of_same hprev.symm]
  exact ⟨hchange, hchange, hprev⟩

/-- An update that sees a committed press kept: Held past the hold threshold (41_button.md R126). -/
theorem buttonUpdate_of_kept_press {sample : Bool} {now : Word} {s : State} (h : sample = s.btnPrev)
    (hs : sample = s.params.pressedLevel) (hp : s.btnState = .pressed) :
    buttonUpdate sample now s = { s with
      btnRaw := sample
      btnState := if s.params.holdThreshold < now - s.btnLastChange then .held else .pressed
      clicks := clicksUnlessStale s.params now s.btnLastClick s.clicks } := by
  have hhold : holdReached sample now s = true ↔ s.params.holdThreshold < now - s.btnLastChange := by
    rw [holdReached_iff, elapsed_eq]
    exact ⟨fun ⟨_, _, hlong⟩ => hlong, fun hlong => ⟨hs, .inl hp, hlong⟩⟩
  rw [buttonUpdate_of_same h, hp]
  simp only [hhold]

/-- A press at `n1` restarts the hold timer, so an update at `n2` that sees it kept gives Held exactly
when more than the hold threshold lies between them (41_button.md R123, R126). -/
theorem buttonUpdate_press_kept {n1 n2 : Word} {s : State} (hoff : s.params.clickAutoReset = false)
    (hup : s.btnPrev ≠ s.params.pressedLevel) (hd : s.params.debounceWindow ≤ n1 - s.btnLastChange) :
    buttonUpdate s.params.pressedLevel n2 (buttonUpdate s.params.pressedLevel n1 s) = { s with
      btnRaw := s.params.pressedLevel, btnPrev := s.params.pressedLevel, btnLastChange := n1
      btnState := if s.params.holdThreshold < n2 - n1 then .held else .pressed } := by
  rw [buttonUpdate_of_press hup.symm hd rfl, clicksUnlessStale_of_off hoff]
  refine Eq.trans (buttonUpdate_of_kept_press rfl rfl rfl) ?_
  dsimp only
  rw [clicksUnlessStale_of_off hoff]

/-- Settles O28: the update at `n2` sees a hold exactly past the threshold, and the release at `n3` is a
click exactly when it saw none. -/
theorem pressAndReleaseMakeOneClick : Obligations.PressAndReleaseMakeOneClick := by
  intro n1 n2 n3 s hoff hup hd1 hd3 pressed kept t series
  have hkept : kept = _ := buttonUpdate_press_kept hoff hup hd1
  have hchange : (!s.params.pressedLevel) ≠ kept.btnPrev := by
    rw [hkept]
    exact Bool.not_ne_self _
  have hdue : kept.params.debounceWindow ≤ n3 - kept.btnLastChange := by rwa [hkept]
  have hrelease : (!s.params.pressedLevel) ≠ kept.params.pressedLevel := by
    rw [hkept]
    exact Bool.not_ne_self _
  by_cases hlong : s.params.holdThreshold < n2 - n1
  · have hstate : kept.btnState = .held := by
      rw [hkept]
      exact if_pos hlong
    have ht : t = _ := buttonUpdate_of_noClick hchange hdue hrelease (by rw [hstate]; decide)
    rw [ht]
    refine ⟨rfl, rfl, fun hshort => absurd hlong (BitVec.not_lt.mpr hshort), fun _ => ⟨hstate, ?_⟩⟩
    rw [hkept]
    exact ⟨rfl, clicksUnlessStale_of_off hoff ..⟩
  · have hstate : kept.btnState = .pressed := by
      rw [hkept]
      exact if_neg hlong
    have ht : t = _ := buttonUpdate_of_click hchange hdue hrelease hstate
    rw [ht]
    refine ⟨rfl, rfl, fun _ => ⟨hstate, rfl, ?_⟩, fun h => absurd h hlong⟩
    rw [hkept]
    exact clicksAfterClick_eq ..

end Sys2Proof.Machine
end

section
/-! A line pressed at reset is no press (41_button.md R129, 90_conflicts.md C5): each part of a pass that
sees the pressed level, and every command, keeps `State.PressedSinceReset`. -/

namespace Sys2Proof.Machine

namespace State.PressedSinceReset

variable {s : State}

theorem atReset (p : Params) : (State.atReset p p.pressedLevel).PressedSinceReset :=
  ⟨rfl, rfl, rfl, rfl⟩

protected theorem takeInput (hs : s.PressedSinceReset) : (takeInput s).PressedSinceReset := by
  rw [takeInput_frame]
  exact { hs with }

/-- The sample is the committed level, and the hold test asks for Pressed or Held
(41_button.md R126). -/
protected theorem buttonUpdate (hs : s.PressedSinceReset) (now : Word) :
    (buttonUpdate s.params.pressedLevel now s).PressedSinceReset := by
  have hnoHold : holdReached s.params.pressedLevel now s = false := by
    simp [holdReached, hs.state]
  rw [buttonUpdate_of_same hs.level.symm, hnoHold, hs.count, clicksUnlessStale_zero]
  exact { hs with count := rfl }

protected theorem pollButton (hs : s.PressedSinceReset) (now : Word) :
    (pollButton s.params.pressedLevel now s).PressedSinceReset := by
  cases hd : pollDue now s with
  | true =>
    rw [pollButton_of_due _ hd]
    exact PressedSinceReset.buttonUpdate (s := { s with btnLastPoll := now }) { hs with } now
  | false => rwa [pollButton_of_not_due _ hd]

protected theorem tickPass (hs : s.PressedSinceReset) :
    (tickPass s.params.pressedLevel s).PressedSinceReset := by
  have hpoll := PressedSinceReset.pollButton (s := advanceTick s) { hs with } (s.tick + 1)
  rw [tickPass_eq, runEngine_frame]
  exact { hpoll with }

protected theorem exec {i : Instr} {t : State} (hs : s.PressedSinceReset) (h : exec i s = .next t) :
    t.PressedSinceReset := by
  have hcount : t.clicks = 0 := (exec_clicks h).elim (·.trans hs.count) id
  rw [exec_frame h]
  exact { hs with count := hcount }

end State.PressedSinceReset

/-- Settles O29: the two inputs run a command or a pass that sees the pressed level. -/
theorem linePressedAtResetIsNoPress : Obligations.LinePressedAtResetIsNoPress := by
  refine ⟨State.PressedSinceReset.atReset, fun s t hs hin h => ?_⟩
  rcases hin with ⟨w, hw⟩ | hlevel
  · exact hs.takeInput.exec (step_command hw ▸ h)
  · rw [step_tick hlevel, ← takeInput_params s] at h
    cases h
    exact hs.takeInput.tickPass

end Sys2Proof.Machine
end

section
/-! Proofs about the button commands (41_button.md R130 to R132): the queries, and the click count from a
cleared count on. -/

namespace Sys2Proof.Machine

/-- Settles O31: the codes of the three states, and `zext_32` of the count. -/
theorem buttonQueries : Obligations.ButtonQueries := by
  refine fun s => ⟨?_, ?_⟩
  · rw [exec, execGetButtonState, answer_next]
    cases s.btnState <;> rfl
  · rw [BitVec.ofNat_toNat]
    rfl

/-! ### The click count from 0 on -/

section zero
variable {s t : State}

theorem maxClicks_ne_zero {p : Params} (h : p.Legal) : p.maxClicks ≠ 0 := by
  intro h0
  rw [Params.Legal, h0] at h
  exact absurd h (by decide)

/-- From a count of 0 a poll counts 1 when it makes a click, and leaves 0 when it makes none. -/
theorem pollButton_clicks_of_zero (level : Bool) (now : Word) (hl : s.params.maxClicks ≠ 0)
    (h0 : s.clicks = 0) :
    let t := pollButton level now s
    t.clicks = if s.btnState = .pressed ∧ t.btnState = .released then 1 else 0 := by
  cases hd : pollDue now s with
  | true =>
    rw [pollButton_of_due level hd]
    exact buttonUpdate_clicks_of_zero (s := { s with btnLastPoll := now }) level now hl h0
  | false =>
    dsimp only
    rw [pollButton_of_not_due level hd, h0, if_neg]
    exact fun ⟨hp, hr⟩ => nomatch hp.symm.trans hr

theorem tickPass_clicks_of_zero (level : Bool) (hl : s.params.maxClicks ≠ 0) (h0 : s.clicks = 0) :
    let t := tickPass level s
    t.clicks = if s.btnState = .pressed ∧ t.btnState = .released then 1 else 0 := by
  obtain ⟨-, -, hstate, -, -, hclicks, -⟩ := tickPass_button level s
  dsimp only
  rw [hstate, hclicks]
  exact pollButton_clicks_of_zero (s := advanceTick s) level (s.tick + 1) hl h0

/-- From a count of 0 a step counts 1 when it makes a click, and leaves 0 when it makes none: a command
and a reset make none. -/
theorem step_clicks_of_zero (hl : s.params.Legal) (h0 : s.clicks = 0) (h : step s = .next t) :
    (IsClick s t → t.clicks = 1) ∧ (¬ IsClick s t → t.clicks = 0) := by
  have h0' : (takeInput s).clicks = 0 := by rwa [takeInput_frame]
  rcases step_cases h with ⟨level, htick, rfl⟩ | ⟨w, hw, hexec⟩ | ⟨level, hr, rfl⟩
  · have hclicks := tickPass_clicks_of_zero level (s := takeInput s)
      (by rw [takeInput_params]; exact maxClicks_ne_zero hl) h0'
    rw [takeInput_btnState] at hclicks
    exact ⟨fun ⟨_, hclick⟩ => hclicks.trans (if_pos hclick),
      fun hnone => hclicks.trans (if_neg fun hclick => hnone ⟨⟨level, htick⟩, hclick⟩)⟩
  · exact ⟨fun ⟨⟨_, htick⟩, _⟩ => (nomatch hw.symm.trans htick),
      fun _ => (exec_clicks hexec).elim (·.trans h0') id⟩
  · exact ⟨fun ⟨⟨_, htick⟩, _⟩ => (nomatch hr.symm.trans htick), fun _ => rfl⟩

/-- A run without a click keeps a count of 0, and the parameters. -/
theorem ClicklessRun.clicks_of_zero (hrun : ClicklessRun s t) (hl : s.params.Legal)
    (h0 : s.clicks = 0) : t.params = s.params ∧ t.clicks = 0 := by
  induction hrun with
  | none => exact ⟨rfl, h0⟩
  | more _ hstep hnone ih =>
    obtain ⟨hparams, hclicks⟩ := ih
    obtain ⟨-, hzero⟩ := step_clicks_of_zero (hparams ▸ hl) hclicks hstep
    exact ⟨(parametersNeverChange _ _ hstep).trans hparams, hzero hnone⟩

end zero

/-! ### `RESET_CLICK_COUNT` -/

theorem decode_resetClickCount {w : Cmd} (h : cmdOp w = 0x0E) : decode w = .resetClickCount := by
  rw [decode, h]
  rfl

theorem exec_resetClickCount (s : State) :
    exec .resetClickCount s = .next { s with clicks := 0, resp := 0 } := rfl

/-- Settles O32: the command's effect by definition; the next click by the run up to it, which keeps the
count at 0; the release of a press in progress as a click from a count of 0. -/
theorem resetClickCountClearsTheCount : Obligations.ResetClickCountClearsTheCount := by
  refine ⟨fun w s hw => ?_, fun s t h => ?_, fun s t u v h hl hrun hstep hclick => ?_,
    fun s t now h hl hp hprev hd => ?_⟩
  · rw [decode_resetClickCount hw, exec_resetClickCount]
  · cases h
    exact ⟨rfl, rfl⟩
  · cases h
    obtain ⟨hparams, hclicks⟩ := hrun.clicks_of_zero hl rfl
    obtain ⟨hone, -⟩ := step_clicks_of_zero (hparams ▸ hl) hclicks hstep
    exact ⟨hclicks, hone hclick⟩
  · cases h
    have hchange : (!s.params.pressedLevel) ≠ s.btnPrev := by
      rw [hprev]
      exact Bool.not_ne_self _
    obtain ⟨hreleased, -⟩ := releaseCommit now { s with clicks := 0, resp := 0 } hchange hd
    exact Eq.trans (buttonUpdate_clicks_of_zero _ now (maxClicks_ne_zero hl) rfl)
      (if_pos ⟨hp, hreleased⟩)

end Sys2Proof.Machine
end

section
/-! What a wave update that runs does to each register (42_pwm_wave.md R150 to R159), and what a pass in
PWM mode does to those of the wave. -/

namespace Sys2Proof.Machine

/-! ### Driving the outputs (42_pwm_wave.md R157 to R159) -/

theorem driveOutputs_duty (s : State) : (driveOutputs s).duty = s.duty := by
  rw [(driveOutputs_frame s).1]

/-- With the per-tick carrier every channel is compared with the carrier before the update, which then
advances once (42_pwm_wave.md R157). -/
theorem driveOutputs_perTick {s : State} (hm : s.params.carrierMode = .perTick) :
    (∀ i < s.params.nCh,
      (driveOutputs s).ledOut i = decide (s.pwmStep.toNat < (s.dutyAt i).toNat)) ∧
    (driveOutputs s).pwmStep.toNat = (s.pwmStep.toNat + 1) % 100 := by
  have hn := s.params.nCh_le
  obtain ⟨hframe, hled⟩ := foldl_compareChannel (List.range s.params.nCh) s
    fun i hi => (List.mem_range.mp hi).trans_le hn
  simp only [driveOutputs, hm]
  refine ⟨fun i hi => ?_, ?_⟩
  · exact (hled i (hi.trans_le hn)).trans (if_pos (List.mem_range.mpr hi))
  · rw [advanceCarrier_toNat, hframe]

/-- With the per-channel carrier channel i is compared with the carrier i advances on
(42_pwm_wave.md R158). -/
theorem driveOutputs_perChannel {s : State} (hm : s.params.carrierMode = .perChannel)
    (hs : s.pwmStep.toNat < 100) :
    (∀ i < s.params.nCh,
      (driveOutputs s).ledOut i = decide ((s.pwmStep.toNat + i) % 100 < (s.dutyAt i).toNat)) ∧
    (driveOutputs s).pwmStep.toNat = (s.pwmStep.toNat + s.params.nCh) % 100 := by
  have hn := s.params.nCh_le
  obtain ⟨-, hstep, hled⟩ := foldl_perChannel s hs s.params.nCh hn
  simp only [driveOutputs, hm]
  exact ⟨fun i hi => (hled i (hi.trans_le hn)).trans (if_pos hi), hstep⟩

/-! ### The update -/

/-- The wave update reaches its body: the period is not 0 and the minimum interval has passed
(42_pwm_wave.md R151, R152). -/
structure State.WaveDue (s : State) (now : Word) : Prop where
  period : s.wavePeriod ≠ 0
  interval : s.params.waveMinUpdateInterval ≤ now - s.waveLastUpdate

/-- What the output loop of an update sees: the new stamp, phase and duties, the old carrier and lines
(42_pwm_wave.md R150). -/
def refreshDuties (now : Word) (s : State) : State :=
  updateDuties { s with waveLastUpdate := now, wavePhase := nextPhase s }

section due
variable {now : Word} {s : State}

theorem State.WaveDue.runs (h : s.WaveDue now) :
    waveUpdate now s = driveOutputs (refreshDuties now s) :=
  waveUpdate_of_runs (waveUpdateSkipped_eq_false h.period h.interval)

/-- An update that runs stamps the time, advances the phase and looks up the duties. -/
theorem State.WaveDue.registers (h : s.WaveDue now) :
    (waveUpdate now s).waveLastUpdate = now ∧ (waveUpdate now s).wavePhase = nextPhase s ∧
    (waveUpdate now s).duty = (refreshDuties now s).duty := by
  rw [h.runs, (driveOutputs_frame _).1]
  exact ⟨rfl, rfl, rfl⟩

theorem State.WaveDue.dutyAt (h : s.WaveDue now) (i : Nat) :
    (waveUpdate now s).dutyAt i = (refreshDuties now s).dutyAt i := by
  rw [State.dutyAt, h.runs, driveOutputs_duty, State.dutyAt]

/-- The phase after an update that runs (42_pwm_wave.md R153). -/
theorem State.WaveDue.wavePhase (h : s.WaveDue now) :
    (waveUpdate now s).wavePhase.toNat =
      (s.wavePhase.toNat + s.waveSpeed.toNat) % s.wavePeriod.toNat := by
  obtain ⟨-, hphase, -⟩ := h.registers
  rw [hphase, nextPhase_toNat h.period]

/-- Each channel's duty after an update that runs (42_pwm_wave.md R154, R155). -/
theorem State.WaveDue.duty (h : s.WaveDue now) {i : Nat} (hi : i < s.params.nCh) :
    ((waveUpdate now s).dutyAt i).toNat = dutyFn s.wavePeriod.toNat
      (((waveUpdate now s).wavePhase.toNat + s.wavePeriod.toNat / s.params.nCh * i) %
        s.wavePeriod.toNat) := by
  obtain ⟨-, hphase, -⟩ := h.registers
  rw [h.dutyAt, hphase]
  exact dutyAt_updateDuties { s with waveLastUpdate := now, wavePhase := nextPhase s } i hi

theorem State.WaveDue.perTick (h : s.WaveDue now) (hm : s.params.carrierMode = .perTick) :
    (∀ i < s.params.nCh, (waveUpdate now s).ledOut i =
      decide (s.pwmStep.toNat < ((waveUpdate now s).dutyAt i).toNat)) ∧
    (waveUpdate now s).pwmStep.toNat = (s.pwmStep.toNat + 1) % 100 := by
  simp only [h.dutyAt]
  rw [h.runs]
  exact driveOutputs_perTick (s := refreshDuties now s) hm

theorem State.WaveDue.perChannel (h : s.WaveDue now) (hm : s.params.carrierMode = .perChannel)
    (hs : s.pwmStep.toNat < 100) :
    (∀ i < s.params.nCh, (waveUpdate now s).ledOut i =
      decide ((s.pwmStep.toNat + i) % 100 < ((waveUpdate now s).dutyAt i).toNat)) ∧
    (waveUpdate now s).pwmStep.toNat = (s.pwmStep.toNat + s.params.nCh) % 100 := by
  simp only [h.dutyAt]
  rw [h.runs]
  exact driveOutputs_perChannel (s := refreshDuties now s) hm hs

end due

end Sys2Proof.Machine
end

section
/-! Proofs about one wave update (42_pwm_wave.md R150 to R159) and the wave commands (R160 to R166). -/

namespace Sys2Proof.Machine

/-- Settles O33: the two tests that skip an update, and the stamp of one that runs. -/
theorem skippedWaveUpdateChangesNothing : Obligations.SkippedWaveUpdateChangesNothing := by
  refine fun now s => ⟨fun h => ?_, fun h => ?_, fun hp hi => ?_⟩
  · exact waveUpdate_of_skipped ((waveUpdateSkipped_iff now s).mpr (.inl h))
  · exact waveUpdate_of_skipped ((waveUpdateSkipped_iff now s).mpr (.inr h))
  · exact (State.WaveDue.registers ⟨hp, hi⟩).1

/-- Settles O34: the phase is a remainder, and the duties are looked up with it. -/
theorem phaseAndDutiesOfAWaveUpdate : Obligations.PhaseAndDutiesOfAWaveUpdate := by
  intro now s hp hi t
  have hdue : s.WaveDue now := ⟨hp, hi⟩
  have hphase : t.wavePhase.toNat = _ := hdue.wavePhase
  obtain ⟨-, -, hduty⟩ := hdue.registers
  refine ⟨hphase, ?_, ?_, fun i => hdue.duty⟩
  · rw [hphase]
    exact Nat.mod_lt _ (wavePeriod_toNat_pos hp)
  · exact (congrArg List.length hduty).trans (length_updateDuties _)

/-- Settles O35: the per-tick output loop on the new duties. -/
theorem perTickComparator : Obligations.PerTickComparator :=
  fun _ _ hp hi => State.WaveDue.perTick ⟨hp, hi⟩

/-- Settles O36: the per-channel output loop on the new duties. -/
theorem perChannelComparator : Obligations.PerChannelComparator :=
  fun _ _ hp hi => State.WaveDue.perChannel ⟨hp, hi⟩

/-- A wave update writes no line from `N_CH` up (42_pwm_wave.md R150). -/
theorem waveUpdate_ledOut_of_le (now : Word) {s : State} {i : Nat} (h : s.params.nCh ≤ i) :
    (waveUpdate now s).ledOut i = s.ledOut i := by
  cases hk : waveUpdateSkipped now s with
  | true => rw [waveUpdate_of_skipped hk]
  | false =>
    rw [waveUpdate_of_runs hk]
    exact (driveOutputs_frame _).2 i h

/-- Settles O37: the frame of the registers, and that of the lines. -/
theorem waveUpdateFrame : Obligations.WaveUpdateFrame :=
  fun now s => ⟨waveUpdate_frame now s, fun _ => waveUpdate_ledOut_of_le now⟩

/-! ### The commands -/

theorem exec_startWave (s : State) :
    exec .startWave s = .next { s with
      seqActive := false, out := 0, wavePhase := 0, waveActive := true, waveLastUpdate := s.tick
      resp := 0 } := rfl

theorem exec_stopWave (s : State) : exec .stopWave s = .next { stopWave s with resp := 0 } := rfl

/-- Settles O40: the start by definition, the stop by whether there is a wave to stop. -/
theorem startAndStopWave : Obligations.StartAndStopWave := by
  refine fun s => ⟨exec_startWave s, fun h => ?_, fun h => ?_⟩
  · rw [exec_stopWave, stopWave_of_active h]
  · rw [exec_stopWave, stopWave_of_inactive h]

/-- Settles O41: each setter writes its register and answers 0. -/
theorem waveSetters : Obligations.WaveSetters := fun _ _ => ⟨rfl, rfl⟩

/-- Settles O42: each query answers its register, `GET_DUTY` by `zext_32`. -/
theorem waveQueries : Obligations.WaveQueries := by
  refine fun s ch => ⟨rfl, rfl, ?_⟩
  rw [BitVec.ofNat_toNat]
  rfl

end Sys2Proof.Machine
end

section
/-! Proofs about the duty function (42_pwm_wave.md R155, R156). A position is folded in two steps: into a
half wave, then about the half wave's middle. -/

namespace Sys2Proof.Machine

/-! ### The symmetries (42_pwm_wave.md R156) -/

/-- The start of the wave (42_pwm_wave.md R156 item 2). -/
theorem dutyFn_zero {p : Nat} (h : 1 ≤ p) : dutyFn p 0 = 50 := by
  rw [dutyFn_first_half h, mul_zero, Nat.zero_min, dutySwing_zero _ (by omega)]

/-- The middle of the wave. -/
theorem dutyFn_half {h : Nat} (hh : 1 ≤ h) : dutyFn (2 * h) h = 50 := by
  rw [dutyFn_second_half le_rfl, Nat.sub_self, Nat.zero_min, dutySwing_zero _ (by omega)]

/-- A position in the first half and one in the second that fold to the same point of the quarter wave
lie as far above 50 as below it. -/
theorem dutyFn_add_of_fold_eq {p a b : Nat} (ha : 2 * a < p) (hb : p ≤ 2 * b)
    (hfold : min (2 * a) (p - 2 * a) = min (2 * b - p) (2 * p - 2 * b)) :
    dutyFn p a + dutyFn p b = 100 := by
  have hle := dutySwing_le (min (2 * b - p) (2 * p - 2 * b)) (2 * p)
  rw [dutyFn_first_half ha, dutyFn_second_half hb, hfold]
  omega

/-- Odd symmetry (42_pwm_wave.md R156 item 4). -/
theorem dutyFn_reflect_add {p pos : Nat} (h0 : 0 < pos) (hpos : pos < p) :
    dutyFn p (p - pos) + dutyFn p pos = 100 := by
  rcases lt_trichotomy (2 * pos) p with h | h | h
  · rw [add_comm]
    exact dutyFn_add_of_fold_eq h (by omega) (by omega)
  · rw [show p - pos = pos by omega, ← h, dutyFn_half h0]
  · exact dutyFn_add_of_fold_eq (by omega) h.le (by omega)

/-- The half-period sum (42_pwm_wave.md R156 item 5), from any position. -/
theorem dutyFn_add_half (a : Nat) {h : Nat} (hh : 1 ≤ h) :
    dutyFn (2 * h) (a % (2 * h)) + dutyFn (2 * h) ((a + h) % (2 * h)) = 100 := by
  have hpos := Nat.mod_lt a (show 0 < 2 * h by omega)
  rw [← Nat.mod_add_mod a]
  generalize a % (2 * h) = pos at hpos ⊢
  rcases lt_or_ge pos h with hlt | hge
  · rw [Nat.mod_eq_of_lt (by omega)]
    exact dutyFn_add_of_fold_eq (by omega) (by omega) (by omega)
  · rw [Nat.mod_eq_sub_mod (by omega), Nat.mod_eq_of_lt (by omega), add_comm]
    exact dutyFn_add_of_fold_eq (by omega) (by omega) (by omega)

/-- The mirror in the first half (42_pwm_wave.md R156 item 6). -/
theorem dutyFn_mirror_first {h pos : Nat} (hh : 1 ≤ h) (hpos : pos ≤ h) :
    dutyFn (2 * h) (h - pos) = dutyFn (2 * h) pos := by
  rcases Nat.eq_zero_or_pos pos with rfl | h0
  · rw [Nat.sub_zero, dutyFn_half hh, dutyFn_zero (by omega)]
  rcases hpos.eq_or_lt with rfl | hlt
  · rw [Nat.sub_self, dutyFn_half hh, dutyFn_zero (by omega)]
  · rw [dutyFn_first_half (by omega), dutyFn_first_half (by omega), min_comm]
    congr 3 <;> omega

/-- The mirror in the second half (42_pwm_wave.md R156 item 6). -/
theorem dutyFn_mirror_second {h pos : Nat} (hlt : h < pos) (hpos : pos < 2 * h) :
    dutyFn (2 * h) (3 * h - pos) = dutyFn (2 * h) pos := by
  rw [dutyFn_second_half (by omega), dutyFn_second_half (by omega), min_comm]
  congr 3 <;> omega

/-- Settles O44: the quarters are each other's reflection, and the first is the top of the wave. -/
theorem dutyRangeAndQuarters : Obligations.DutyRangeAndQuarters := by
  refine ⟨dutyFn_le_hundred, fun p => dutyFn_zero, fun m hm => ?_⟩
  have hfirst : dutyFn (4 * m) m = 100 := by
    rw [dutyFn_first_half (by omega), show min (2 * m) (4 * m - 2 * m) = 2 * m by omega,
      show 2 * (4 * m) = 4 * (2 * m) by ring, dutySwing_quarter]
  have hsum := dutyFn_reflect_add (p := 4 * m) hm (by omega)
  rw [show 4 * m - m = 3 * m by omega] at hsum
  exact ⟨hfirst, by omega⟩

/-- Settles O45: the index modulo the period is reduced, and then the two halves are apart. -/
theorem dutySymmetries : Obligations.DutySymmetries := by
  refine ⟨fun p pos hpos => ?_, fun h pos hpos => ?_, fun h pos hpos => ?_⟩
  · rcases Nat.eq_zero_or_pos pos with rfl | h0
    · rw [Nat.sub_zero, Nat.mod_self, dutyFn_zero hpos]
    · rw [Nat.mod_eq_of_lt (by omega)]
      exact dutyFn_reflect_add h0 hpos
  · have hsum := dutyFn_add_half pos (h := h) (by omega)
    rwa [Nat.mod_eq_of_lt hpos] at hsum
  · rcases le_or_gt pos h with hle | hlt
    · rw [show 2 * h + h - pos = h - pos + 2 * h by omega, Nat.add_mod_right,
        Nat.mod_eq_of_lt (by omega)]
      exact dutyFn_mirror_first (by omega) hle
    · rw [show 2 * h + h - pos = 3 * h - pos by omega, Nat.mod_eq_of_lt (by omega)]
      exact dutyFn_mirror_second hlt hpos

/-- Settles O46: of four channels two steps apart lie half a period apart. -/
theorem oppositeChannelsSumToHundred : Obligations.OppositeChannelsSumToHundred := by
  intro now s hn hp hdvd hi t
  have hdue : s.WaveDue now := ⟨hp, hi⟩
  have hduty (i : Nat) (hi : i < 4) : (t.dutyAt i).toNat = dutyFn s.wavePeriod.toNat
      ((t.wavePhase.toNat + s.wavePeriod.toNat / 4 * i) % s.wavePeriod.toNat) :=
    hn ▸ hdue.duty (hn ▸ hi)
  obtain ⟨m, hm⟩ := Nat.dvd_of_mod_eq_zero hdvd
  have hm1 : 1 ≤ m := by
    have := wavePeriod_toNat_pos hp
    omega
  have hsum (i : Nat) (hi : i < 2) : (t.dutyAt i).toNat + (t.dutyAt (i + 2)).toNat = 100 := by
    have h := dutyFn_add_half (t.wavePhase.toNat + m * i) (h := 2 * m) (by omega)
    rw [hduty i (by omega), hduty (i + 2) (by omega), hm, Nat.mul_div_cancel_left m four_pos]
    rwa [← mul_assoc, show t.wavePhase.toNat + m * i + 2 * m = t.wavePhase.toNat + m * (i + 2) by
      ring] at h
  exact ⟨hsum 0 two_pos, hsum 1 one_lt_two⟩

/-! ### The sine (42_pwm_wave.md R155) -/

/-- The sine of a half wave at a / p, folded about its middle: the quarter wave of `dutySwing`. -/
theorem sin_folded {p a : ℕ} (hp : 0 < p) (ha : a ≤ p) :
    Real.sin (2 * Real.pi * (min a (p - a) : ℕ) / (2 * p : ℕ)) = Real.sin (Real.pi * a / p) := by
  have hp' : (p : ℝ) ≠ 0 := by exact_mod_cast hp.ne'
  rcases le_total a (p - a) with h | h
  · rw [min_eq_left h]
    congr 1
    push_cast
    field_simp
  · rw [min_eq_right h, ← Real.sin_pi_sub (Real.pi * a / p)]
    congr 1
    push_cast [Nat.cast_sub ha]
    field_simp

/-- The swing of a folded position is nearest to 50 times the sine of its half wave. -/
theorem dutySwing_folded_nearest {p a : ℕ} (h1 : 1 ≤ p) (hp : p < 2 ^ 32) (ha : a ≤ p) :
    |50 * Real.sin (Real.pi * a / p) - (dutySwing (min a (p - a)) (2 * p) : ℝ)| < 1 / 2 := by
  rw [← sin_folded h1 ha]
  exact dutySwing_nearest _ _ (by omega) (by omega) (by omega)

/-- Settles O43: in the first half wave the sine is that of the folded position, in the second its
negative. -/
theorem dutyIsTheNearestInteger : Obligations.DutyIsTheNearestInteger := by
  refine fun p pos h1 hp hpos => ⟨dutyFn_le_hundred p pos, ?_⟩
  have hp' : (p : ℝ) ≠ 0 := by exact_mod_cast (by omega : p ≠ 0)
  rcases lt_or_ge (2 * pos) p with hlt | hge
  · have hnear := dutySwing_folded_nearest h1 hp hlt.le
    have hangle : 2 * Real.pi * pos / p = Real.pi * (2 * pos : ℕ) / p := by
      push_cast
      ring
    rw [dutyFn_first_half hlt, hangle, Nat.cast_add]
    convert hnear using 2
    push_cast
    ring
  · have hnear := dutySwing_folded_nearest h1 hp (show 2 * pos - p ≤ p by omega)
    have hangle : 2 * Real.pi * pos / p = Real.pi * (2 * pos - p : ℕ) / p + Real.pi := by
      push_cast [Nat.cast_sub hge]
      field_simp
      ring
    rw [dutyFn_second_half hge, hangle, Real.sin_add_pi, Nat.cast_sub (dutySwing_le _ _),
      show 2 * p - 2 * pos = p - (2 * pos - p) by omega, ← abs_neg]
    convert hnear using 2
    push_cast
    ring

end Sys2Proof.Machine
end

section
/-! Proofs about several passes in PWM mode: the phase accumulates (42_pwm_wave.md R153), and with a
frozen phase a channel is on for its duty share of the carrier cycle (R157). -/

namespace Sys2Proof.Machine

/-! ### Passes in PWM mode -/

/-- Every pass from here on runs a wave update: the wave is active, its period is not 0 and there is no
minimum interval (40_tick_dispatch.md R104, 42_pwm_wave.md R151, R152). -/
structure State.WaveRuns (s : State) : Prop where
  active : s.waveActive = true
  period : s.wavePeriod ≠ 0
  interval : s.params.waveMinUpdateInterval = 0

/-- The settings of the wave, which no pass writes (10_state.md R32, R33, R47). -/
structure State.SameWaveSettings (s t : State) : Prop where
  params : t.params = s.params
  active : t.waveActive = s.waveActive
  speed : t.waveSpeed = s.waveSpeed
  period : t.wavePeriod = s.wavePeriod

section passes
variable {s : State}

theorem State.WaveRuns.due (h : s.WaveRuns) (now : Word) : s.WaveDue now :=
  ⟨h.period, by rw [h.interval]; exact Nat.zero_le _⟩

theorem State.WaveRuns.of_sameWaveSettings {t : State} (h : s.WaveRuns) (hst : s.SameWaveSettings t) :
    t.WaveRuns :=
  ⟨hst.active.trans h.active, hst.period ▸ h.period, hst.params ▸ h.interval⟩

theorem State.SameWaveSettings.trans {t u : State} (hst : s.SameWaveSettings t)
    (htu : t.SameWaveSettings u) : s.SameWaveSettings u :=
  ⟨htu.params.trans hst.params, htu.active.trans hst.active, htu.speed.trans hst.speed,
    htu.period.trans hst.period⟩

theorem tickPass_sameWaveSettings (level : Bool) (s : State) :
    s.SameWaveSettings (tickPass level s) := by
  rw [tickPass_frame]
  exact ⟨rfl, rfl, rfl, rfl⟩

/-- The wave registers and the outputs after a pass in PWM mode are those of the wave update. -/
theorem tickPass_wave (level : Bool) (hw : s.waveActive = true) :
    let t := tickPass level s
    let u := waveUpdate (s.tick + 1) s
    t.wavePhase = u.wavePhase ∧ t.duty = u.duty ∧ t.pwmStep = u.pwmStep ∧ t.out = u.out := by
  dsimp only
  rw [tickPass_engine, runEngine_wave _ hw]
  exact ⟨rfl, rfl, rfl, rfl⟩

/-- The phase after a pass that runs the wave update (42_pwm_wave.md R153). -/
theorem State.WaveRuns.wavePhase_tickPass (h : s.WaveRuns) (level : Bool) :
    (tickPass level s).wavePhase.toNat =
      (s.wavePhase.toNat + s.waveSpeed.toNat) % s.wavePeriod.toNat := by
  obtain ⟨hphase, -⟩ := tickPass_wave level h.active
  rw [hphase, (h.due _).wavePhase]

/-- The phase after any number of passes, from a phase below the period (42_pwm_wave.md R153). -/
theorem State.WaveRuns.wavePhase_passes (levels : List Bool) (h : s.WaveRuns)
    (hlt : s.wavePhase.toNat < s.wavePeriod.toNat) :
    (passes levels s).wavePhase.toNat =
      (s.wavePhase.toNat + levels.length * s.waveSpeed.toNat) % s.wavePeriod.toNat := by
  induction levels generalizing s with
  | nil => simp [passes_nil, Nat.mod_eq_of_lt hlt]
  | cons level levels ih =>
    have hsettings := tickPass_sameWaveSettings level s
    have hphase := h.wavePhase_tickPass level
    have hbound := hphase.trans_lt (Nat.mod_lt _ (wavePeriod_toNat_pos h.period))
    rw [passes_cons, ih (h.of_sameWaveSettings hsettings) (hsettings.period.symm ▸ hbound), hphase,
      hsettings.speed, hsettings.period, Nat.mod_add_mod, List.length_cons, add_mul, one_mul]
    congr 1
    ring

end passes

/-- Settles O39: `START_WAVE` leaves phase 0 and a wave that runs at every pass. -/
theorem phaseAfterPasses : Obligations.PhaseAfterPasses := by
  intro s t levels hstart hp hi
  obtain ⟨hruns, hphase, hspeed, hperiod⟩ : t.WaveRuns ∧ t.wavePhase.toNat = 0 ∧
      t.waveSpeed = s.waveSpeed ∧ t.wavePeriod = s.wavePeriod := by
    cases (exec_startWave s).symm.trans hstart
    exact ⟨⟨rfl, hp, hi⟩, rfl, rfl, rfl⟩
  have hbound : t.wavePhase.toNat < t.wavePeriod.toNat :=
    hphase ▸ wavePeriod_toNat_pos hruns.period
  rw [hruns.wavePhase_passes levels hbound, hphase, zero_add, hspeed, hperiod]

/-! ### The duty share (42_pwm_wave.md R157) -/

/-- In a cycle of n, started anywhere, a counter is below d exactly d times. -/
theorem count_add_mod_lt (c : Nat) {d n : Nat} (hd : d ≤ n) :
    Nat.count (fun k => (c + k) % n < d) n = d := by
  have hperiod : Nat.count (fun k => (c + k) % n < d) n = Nat.count (fun k => k % n < d) n := by
    have hfront := Nat.count_add (fun k => k % n < d) c n
    have hback := Nat.count_add (fun k => k % n < d) n c
    simp only [Nat.add_mod_left] at hback
    rw [add_comm n c] at hback
    omega
  have hbelow : Nat.count (fun k => k % n < d) d = d :=
    Nat.count_of_forall fun k hk => (Nat.mod_eq_of_lt (hk.trans_le hd)).symm ▸ hk
  have habove : Nat.count (fun k => (d + k) % n < d) (n - d) = 0 :=
    Nat.count_of_forall_not fun k hk => by
      rw [Nat.mod_eq_of_lt (by omega)]
      omega
  have hsplit := Nat.count_add (fun k => k % n < d) d (n - d)
  rw [Nat.add_sub_cancel' hd] at hsplit
  omega

/-- A wave that runs with the per-tick carrier and whose phase stands still. -/
structure State.FrozenWave (s : State) : Prop extends s.WaveRuns where
  speed : s.waveSpeed.toNat = 0
  carrier : s.params.carrierMode = .perTick

/-- `t` is `s` with the carrier k steps on, as far as a frozen wave goes (42_pwm_wave.md R153, R157). -/
structure State.CarrierAhead (s : State) (k : Nat) (t : State) : Prop where
  settings : s.SameWaveSettings t
  phase : t.wavePhase.toNat % s.wavePeriod.toNat = s.wavePhase.toNat % s.wavePeriod.toNat
  carrier : t.pwmStep.toNat = (s.pwmStep.toNat + k) % 100

/-- The duty that a channel has as long as the phase stands still. -/
def State.frozenDuty (s : State) (i : Nat) : Nat :=
  dutyFn s.wavePeriod.toNat
    ((s.wavePhase.toNat + s.wavePeriod.toNat / s.params.nCh * i) % s.wavePeriod.toNat)

namespace State.FrozenWave
variable {s t : State} {i k : Nat}

theorem of_carrierAhead (h : s.FrozenWave) (ht : s.CarrierAhead k t) : t.FrozenWave where
  toWaveRuns := h.toWaveRuns.of_sameWaveSettings ht.settings
  speed := ht.settings.speed ▸ h.speed
  carrier := ht.settings.params ▸ h.carrier

/-- A pass takes the carrier of a frozen wave one step on. -/
theorem carrierAhead_tickPass (h : s.FrozenWave) (ht : s.CarrierAhead k t) (level : Bool) :
    s.CarrierAhead (k + 1) (tickPass level t) := by
  have hfrozen := h.of_carrierAhead ht
  obtain ⟨-, -, hstep, -⟩ := tickPass_wave level hfrozen.active
  obtain ⟨-, hcarrier⟩ := (hfrozen.due (t.tick + 1)).perTick hfrozen.carrier
  refine ⟨ht.settings.trans (tickPass_sameWaveSettings level t), ?_, ?_⟩
  · rw [hfrozen.wavePhase_tickPass, hfrozen.speed, add_zero, ht.settings.period, Nat.mod_mod, ht.phase]
  · rw [hstep, hcarrier, ht.carrier, Nat.mod_add_mod, add_assoc]

theorem carrierAhead_passes (h : s.FrozenWave) (hs : s.pwmStep.toNat < 100) (level : Bool) (k : Nat) :
    s.CarrierAhead k (passes (List.replicate k level) s) := by
  induction k with
  | zero => exact ⟨⟨rfl, rfl, rfl, rfl⟩, rfl, (Nat.mod_eq_of_lt hs).symm⟩
  | succ k ih =>
    rw [List.replicate_succ', passes_concat]
    exact h.carrierAhead_tickPass ih level

/-- A pass of a frozen wave gives every channel its constant duty, and compares it with the carrier. -/
theorem tickPass_channel (h : s.FrozenWave) (ht : s.CarrierAhead k t) (hi : i < s.params.nCh)
    (level : Bool) :
    ((tickPass level t).dutyAt i).toNat = s.frozenDuty i ∧
    (tickPass level t).ledOut i = decide ((s.pwmStep.toNat + k) % 100 < s.frozenDuty i) := by
  have hfrozen := h.of_carrierAhead ht
  have hdue := hfrozen.due (t.tick + 1)
  have hit : i < t.params.nCh := ht.settings.params ▸ hi
  obtain ⟨-, hduty, -, hout⟩ := tickPass_wave level hfrozen.active
  obtain ⟨hled, -⟩ := hdue.perTick hfrozen.carrier
  have hconstant : ((waveUpdate (t.tick + 1) t).dutyAt i).toNat = s.frozenDuty i := by
    rw [hdue.duty hit, hdue.wavePhase, hfrozen.speed, add_zero, ht.settings.period,
      ht.settings.params, ht.phase, Nat.mod_add_mod, State.frozenDuty]
  refine ⟨?_, ?_⟩
  · rw [State.dutyAt, hduty]
    exact hconstant
  · rw [ledOut_eq_of_out_eq hout, hled i hit, hconstant, ht.carrier]

end State.FrozenWave

/-- Settles O38: after k + 1 passes the channel is on exactly when the carrier after k passes is below
the constant duty, and 100 passes are one carrier cycle. -/
theorem channelIsOnForItsDutyShare : Obligations.ChannelIsOnForItsDutyShare := by
  intro s level i hs hw hp h0 hi hm hch
  have hfrozen : s.FrozenWave := ⟨⟨hw, hp, hi⟩, congrArg BitVec.toNat h0, hm⟩
  have hahead := hfrozen.carrierAhead_passes hs.carrier level
  obtain ⟨hduty, -⟩ := hfrozen.tickPass_channel (hahead 0) hch level
  have hled (k : Nat) : (passes (List.replicate (k + 1) level) s).ledOut i =
      decide ((s.pwmStep.toNat + k) % 100 < s.frozenDuty i) := by
    rw [List.replicate_succ', passes_concat]
    exact (hfrozen.tickPass_channel (hahead k) hch level).2
  simp only [hled]
  exact (count_add_mod_lt _ (dutyFn_le_hundred _ _)).trans hduty.symm

end Sys2Proof.Machine
end

section
/-! Proofs about the sequencer: one chase step (43_sequencer.md R190), the sequence commands (R191 to
R193), and the chase over any number of passes (R194). -/

namespace Sys2Proof.Machine

/-! ### The chase step -/

section chaseStep
variable {now : Word} {s : State}

theorem seqUpdate_of_early (h : now - s.seqLastStep < s.seqStep) : seqUpdate now s = s :=
  seqUpdate_of_not_due (Bool.eq_false_iff.mpr fun hdue =>
    BitVec.not_le.mpr h ((seqStepDue_iff now s).mp hdue))

/-- A due chase step moves on one channel and stamps the time (43_sequencer.md R190). -/
theorem seqUpdate_registers (h : s.seqStep ≤ now - s.seqLastStep) :
    (seqUpdate now s).seqCur = nextChannel s ∧ (seqUpdate now s).seqLastStep = now := by
  rw [seqUpdate_of_due ((seqStepDue_iff now s).mpr h)]
  exact ⟨rfl, rfl⟩

/-- A due chase step lights the next channel, and darkens the old one where it is another
(43_sequencer.md R190). -/
theorem seqUpdate_ledOut (h : s.seqStep ≤ now - s.seqLastStep) {i : Nat} (hi : i < 32) :
    (seqUpdate now s).ledOut i =
      if i = (nextChannel s).toNat then true else if i = s.seqCur.toNat then false else s.ledOut i := by
  rw [seqUpdate_of_due ((seqStepDue_iff now s).mpr h), ← ledOut_setOut s _ i false s.seqCur.isLt hi]
  exact ledOut_setOut _ _ i true (nextChannel s).isLt hi

end chaseStep

/-- Settles O48: an early update does nothing; a due one has the frame of every update, and its stamp,
channel and lines are those of the chase step. -/
theorem chaseStep : Obligations.ChaseStep := by
  intro now s t
  refine ⟨seqUpdate_of_early, fun hdue => ?_⟩
  obtain ⟨hcur, hstamp⟩ : t.seqCur = nextChannel s ∧ t.seqLastStep = now := seqUpdate_registers hdue
  refine ⟨?_, ?_, fun i hi => ?_⟩
  · have hframe : t = _ := seqUpdate_frame now s
    rwa [hstamp] at hframe
  · rw [hcur, nextChannel_toNat]
  · rw [hcur, seqUpdate_ledOut hdue hi]

/-! ### The commands -/

theorem exec_startSequence (v : Word) (s : State) :
    exec (.startSequence v) s = .next { s with
      waveActive := false, seqStep := v, out := 1, seqCur := 0, seqLastStep := s.tick
      seqActive := true, resp := 0 } := congrArg (answer 0) (startSequence_eq v s)

theorem exec_stopSequence (s : State) :
    exec .stopSequence s = .next { stopSequence s with resp := 0 } := rfl

/-- Settles O49: the start's one equation, with the answer 0. -/
theorem startSequenceCommand : Obligations.StartSequenceCommand := exec_startSequence

/-- Settles O50: the stop by whether there is a chase to stop, and the query by definition. -/
theorem stopSequenceAndQuery : Obligations.StopSequenceAndQuery := by
  refine fun s => ⟨fun h => ?_, fun h => ?_, rfl⟩
  · rw [exec_stopSequence, stopSequence_of_active h]
  · rw [exec_stopSequence, stopSequence_of_inactive h]

/-! ### Passes in SEQUENCE mode -/

/-- Every pass from here on runs a sequencer update, with parameters `p` and step duration `d`
(40_tick_dispatch.md R104). -/
structure State.ChaseRuns (p : Params) (d : Word) (s : State) : Prop where
  params : s.params = p
  idle : s.waveActive = false
  active : s.seqActive = true
  duration : s.seqStep = d

/-- A chase that has taken `q` steps since its start, the last of them (or the start) `r` ticks ago, and
lights its current channel alone (43_sequencer.md R190, R191). -/
structure State.ChaseAt (p : Params) (d : Word) (q r : Nat) (s : State) : Prop
    extends s.ChaseRuns p d where
  age : (s.tick - s.seqLastStep).toNat = r
  current : s.seqCur.toNat = q % p.nCh
  lit : ∀ i < 32, s.ledOut i = decide (i = s.seqCur.toNat)

section passes
variable {p : Params} {d : Word} {q r : Nat} {s : State}

protected theorem State.ChaseRuns.tickPass (h : s.ChaseRuns p d) (level : Bool) :
    (tickPass level s).ChaseRuns p d := by
  rw [tickPass_frame]
  exact ⟨h.params, h.idle, h.active, h.duration⟩

/-- The chase registers and the outputs after a pass in SEQUENCE mode are those of the sequencer
update. -/
theorem State.ChaseRuns.tickPass_chase (h : s.ChaseRuns p d) (level : Bool) :
    let t := tickPass level s
    let u := seqUpdate (s.tick + 1) s
    t.seqCur = u.seqCur ∧ t.seqLastStep = u.seqLastStep ∧ t.out = u.out := by
  dsimp only
  rw [tickPass_engine, runEngine_sequence _ h.idle h.active]
  exact ⟨rfl, rfl, rfl⟩

namespace State.ChaseAt

/-- At the next pass the step is one tick older, as long as that fits a word (00_scope.md R10, R11). -/
theorem age_succ (h : s.ChaseAt p d q r) (hr : r + 1 ≤ d.toNat) :
    (s.tick + 1 - s.seqLastStep).toNat = r + 1 := by
  have hage := h.age
  bv_omega

/-- A pass before the step is over only ages the step. -/
theorem tickPass_of_lt (h : s.ChaseAt p d q r) (hr : r + 1 < d.toNat) (level : Bool) :
    (tickPass level s).ChaseAt p d q (r + 1) := by
  have hage := h.age_succ hr.le
  have hearly : s.tick + 1 - s.seqLastStep < s.seqStep := by
    rw [h.duration, BitVec.lt_def, hage]
    exact hr
  obtain ⟨hcur, hstamp, hout⟩ := h.tickPass_chase level
  rw [seqUpdate_of_early hearly] at hcur hstamp hout
  refine ⟨h.toChaseRuns.tickPass level, ?_, ?_, fun i hi => ?_⟩
  · rw [tickPass_tick, hstamp, hage]
  · rw [hcur, h.current]
  · rw [ledOut_eq_of_out_eq hout, hcur, h.lit i hi]

/-- The pass that ends the step begins the next one. -/
theorem tickPass_of_eq (h : s.ChaseAt p d q r) (hr : r + 1 = d.toNat) (level : Bool) :
    (tickPass level s).ChaseAt p d (q + 1) 0 := by
  have hdue : s.seqStep ≤ s.tick + 1 - s.seqLastStep := by
    rw [h.duration, BitVec.le_def, h.age_succ hr.le, hr]
  obtain ⟨hcur, hstamp, hout⟩ := h.tickPass_chase level
  obtain ⟨hnext, hnow⟩ := seqUpdate_registers hdue
  rw [hnext] at hcur
  rw [hnow] at hstamp
  refine ⟨h.toChaseRuns.tickPass level, ?_, ?_, fun i hi => ?_⟩
  · rw [tickPass_tick, hstamp, BitVec.sub_self]
    rfl
  · rw [hcur, nextChannel_toNat, h.params, h.current, Nat.mod_add_mod]
  · rw [ledOut_eq_of_out_eq hout, hcur, seqUpdate_ledOut hdue hi, h.lit i hi]
    split_ifs with hnew hold
    · exact (decide_eq_true hnew).symm
    · exact (decide_eq_false hnew).symm
    · rw [decide_eq_false hold, decide_eq_false hnew]

/-- A pass after n passes of a chase with step d ≥ 1: `n div d` steps, and `n mod d` ticks since. -/
theorem tickPass_divMod {n : Nat} (h : s.ChaseAt p d (n / d.toNat) (n % d.toNat)) (hd : 1 ≤ d.toNat)
    (level : Bool) :
    (tickPass level s).ChaseAt p d ((n + 1) / d.toNat) ((n + 1) % d.toNat) := by
  have hsplit := Nat.mod_add_div n d.toNat
  rcases Nat.lt_or_eq_of_le (Nat.mod_lt n hd : n % d.toNat + 1 ≤ d.toNat) with hlt | heq
  · obtain ⟨hdiv, hmod⟩ := (Nat.div_mod_unique hd).mpr
      ⟨show n % d.toNat + 1 + d.toNat * (n / d.toNat) = n + 1 by omega, hlt⟩
    rw [hdiv, hmod]
    exact h.tickPass_of_lt hlt level
  · obtain ⟨hdiv, hmod⟩ := (Nat.div_mod_unique hd).mpr
      ⟨show 0 + d.toNat * (n / d.toNat + 1) = n + 1 by rw [mul_add]; omega, hd⟩
    rw [hdiv, hmod]
    exact h.tickPass_of_eq heq level

/-- From the start of a chase, n passes make `n div d` steps (43_sequencer.md R194). -/
protected theorem passes (h : s.ChaseAt p d 0 0) (hd : 1 ≤ d.toNat) (levels : List Bool) :
    (passes levels s).ChaseAt p d (levels.length / d.toNat) (levels.length % d.toNat) := by
  induction levels using List.reverseRecOn with
  | nil =>
    rw [passes_nil, List.length_nil, Nat.zero_div, Nat.zero_mod]
    exact h
  | append_singleton levels level ih =>
    rw [passes_concat, List.length_append]
    exact ih.tickPass_divMod hd level

end State.ChaseAt

end passes

/-- `START_SEQUENCE` begins a chase at channel 0 (43_sequencer.md R191). -/
theorem chaseAt_of_startSequence {s t : State} {d : Word} (h : exec (.startSequence d) s = .next t) :
    t.ChaseAt s.params d 0 0 := by
  cases (exec_startSequence d s).symm.trans h
  refine ⟨⟨rfl, rfl, rfl, rfl⟩, congrArg BitVec.toNat (BitVec.sub_self s.tick), (Nat.zero_mod _).symm,
    fun i hi => ?_⟩
  exact channelBit_getLsbD 0 i (by decide)

/-- Settles O51: the chase that the start begins, after as many passes as there are levels. -/
theorem chaseSchedule : Obligations.ChaseSchedule := by
  intro s t d levels hstart hd u
  have hchase : u.ChaseAt s.params d _ _ := (chaseAt_of_startSequence hstart).passes hd levels
  refine ⟨hchase.current, fun i hi => ?_⟩
  rw [hchase.lit i hi, hchase.current]

end Sys2Proof.Machine
end

section
/-! Proofs about mode control and the output mux: the mode switch (44_mode_outputs.md R211), manual
control and read-back (R213, R214), and the outputs at a change of owner (R210). -/

namespace Sys2Proof.Machine

/-! ### The mode switch -/

/-- The operands from 3 up name no mode (30_encoding.md R86). -/
theorem modeOfOperand_of_reserved {v : Word} (h : 3 ≤ v.toNat) : modeOfOperand v = none := by
  have hne (n : Word) (hn : n.toNat < 3) : v ≠ n := by
    rintro rfl
    exact Nat.not_lt.mpr h hn
  rw [modeOfOperand, if_neg (hne 0 (by decide)), if_neg (hne 1 (by decide)),
    if_neg (hne 2 (by decide))]

/-- The operand that names a mode is the mode's code (10_state.md R42). -/
theorem modeOfOperand_code (m : Mode) : modeOfOperand m.code = some m := by
  cases m <;> rfl

theorem setMode_code_of_ne {m : Mode} {s : State} (h : s.mode ≠ m) :
    setMode m.code s = switchMode m s := by
  rw [setMode, modeOfOperand_code]
  exact if_neg h.symm

/-- To leave PWM or SEQUENCE mode for STATIC mode stops both engines and clears the outputs
(44_mode_outputs.md R211). -/
theorem switchMode_static_of_ne {s : State} (h : s.mode ≠ .static) :
    switchMode .static s = { s with waveActive := false, seqActive := false, out := 0 } := by
  have hrunning : s.waveActive = true ∨ s.seqActive = true := by
    by_contra hidle
    rw [not_or, Bool.not_eq_true, Bool.not_eq_true] at hidle
    exact h ((mode_static_iff s).mpr hidle)
  rw [switchMode, stopBoth_eq, if_pos hrunning]

theorem switchMode_sequence (s : State) :
    switchMode .sequence s = { s with
      waveActive := false, out := 1, seqCur := 0, seqLastStep := s.tick, seqActive := true } :=
  startSequence_eq s.seqStep s

theorem exec_setMode_of_fixed {v : Word} {s : State} (h : ∀ m, modeOfOperand v = some m → s.mode = m) :
    exec (.setMode v) s = .next { s with resp := 0 } :=
  congrArg (answer 0) (setMode_of_mode h)

theorem exec_setMode_code_of_ne {m : Mode} {s : State} (h : s.mode ≠ m) :
    exec (.setMode m.code) s = answer 0 (switchMode m s) :=
  congrArg (answer 0) (setMode_code_of_ne h)

/-- Settles O52: a reserved operand names no mode, and the operands 0, 1 and 2 are the codes of the three
modes, each of which is switched to from any other. -/
theorem setModeCommand : Obligations.SetModeCommand := by
  refine fun v s => ⟨fun h => ?_, ?_, ?_, ?_, ?_⟩
  · exact exec_setMode_of_fixed (by simp [modeOfOperand_of_reserved h])
  · rintro rfl
    exact exec_setMode_of_fixed (by simp [modeOfOperand_code])
  · rintro rfl h
    exact (exec_setMode_code_of_ne h).trans (congrArg (answer 0) (switchMode_static_of_ne h))
  · rintro rfl h
    exact exec_setMode_code_of_ne h
  · rintro rfl h
    exact (exec_setMode_code_of_ne h).trans (congrArg (answer 0) (switchMode_sequence s))

/-! ### Manual control and read-back -/

theorem exec_ledWrite_of_static {s : State} (h : s.mode = .static) (ch : BitVec 16) (val : Bool) :
    exec (.ledWrite ch val) s = .next { s.setOut (channelOperand s ch) val with resp := 0 } :=
  congrArg (answer 0) (if_pos h)

theorem exec_ledWrite_of_ne {s : State} (h : s.mode ≠ .static) (ch : BitVec 16) (val : Bool) :
    exec (.ledWrite ch val) s = .next { s with resp := 0 } :=
  congrArg (answer 0) (if_neg h)

/-- Settles O53: in STATIC mode the one line that `OUT[i] <- b` changes, elsewhere the response alone. -/
theorem ledWriteCommand : Obligations.LedWriteCommand := by
  refine fun ch val s => ⟨fun hw hq => ?_, fun hactive => ?_⟩
  · have hm : s.mode = .static := (mode_static_iff s).mpr ⟨hw, hq⟩
    exact ⟨_, exec_ledWrite_of_static hm ch val, rfl, fun i =>
      ledOut_setOut s (channelOperand s ch) i val (channelOperand_lt_32 s ch)⟩
  · refine exec_ledWrite_of_ne (fun hm => ?_) ch val
    obtain ⟨hw, hq⟩ := (mode_static_iff s).mp hm
    simp [hw, hq] at hactive

/-- Settles O54: the response is the output word, cut at `N_CH`. -/
theorem getOutputsCommand : Obligations.GetOutputsCommand :=
  fun s => ⟨_, rfl, rfl, fun i _ => outputs_getLsbD s i⟩

/-! ### A change of owner -/

/-- The outputs a new owner begins with: all off, but channel 0 on for the chase (44_mode_outputs.md
R210, 43_sequencer.md R191). -/
def State.OutputsAtOwnerChange (s : State) : Prop := s.out = if s.mode = .sequence then 1 else 0

theorem State.OutputsAtOwnerChange.of_off {s : State} (hout : s.out = 0) (hm : s.mode ≠ .sequence) :
    s.OutputsAtOwnerChange :=
  hout.trans (if_neg hm).symm

theorem startWave_outputs (s : State) : (startWave s).OutputsAtOwnerChange := .of_off rfl nofun

theorem startSequence_outputs (v : Word) (s : State) : (startSequence v s).OutputsAtOwnerChange := by
  rw [startSequence_eq]
  rfl

/-- A stop of the wave that changes the mode forces the outputs off, and no chase was hidden behind the
wave (42_pwm_wave.md R161, 10_state.md R46 item 6). -/
theorem stopWave_outputs {s : State} (hs : s.Inv) (h : (stopWave s).mode ≠ s.mode) :
    (stopWave s).OutputsAtOwnerChange := by
  cases hw : s.waveActive with
  | false => exact absurd (congrArg State.mode (stopWave_of_inactive hw)) h
  | true =>
    rw [stopWave_of_active hw]
    refine .of_off rfl fun hm => hs.engines ⟨hw, ?_⟩
    exact ((mode_sequence_iff _).mp hm).2

/-- A stop of the chase that changes the mode forces the outputs off (43_sequencer.md R192). -/
theorem stopSequence_outputs {s : State} (h : (stopSequence s).mode ≠ s.mode) :
    (stopSequence s).OutputsAtOwnerChange := by
  cases hq : s.seqActive with
  | false => exact absurd (congrArg State.mode (stopSequence_of_inactive hq)) h
  | true =>
    rw [stopSequence_of_active hq]
    refine .of_off rfl fun hm => ?_
    exact absurd ((mode_sequence_iff _).mp hm).2 Bool.false_ne_true

/-- `SET_MODE` changes the mode by the stops or by a start (44_mode_outputs.md R211). -/
theorem setMode_outputs {v : Word} {s : State} (h : (setMode v s).mode ≠ s.mode) :
    (setMode v s).OutputsAtOwnerChange := by
  rcases setMode_cases v s with hset | ⟨-, hm, hset⟩ | ⟨-, -, hset⟩ | ⟨-, -, hset⟩
  · exact absurd (congrArg State.mode hset) h
  · rw [hset, show stopSequence (stopWave s) = _ from switchMode_static_of_ne hm]
    exact .of_off rfl nofun
  · rw [hset]
    exact startWave_outputs s
  · rw [hset]
    exact startSequence_outputs s.seqStep s

/-- Settles O59: the five commands that start or stop an engine; every other command keeps the mode. -/
theorem ownerChangeForcesOutputsOff : Obligations.OwnerChangeForcesOutputsOff := by
  intro i s t hs h hmode
  cases i <;> cases h
  case setMode v => exact setMode_outputs (v := v) (s := s) hmode
  case startWave => exact startWave_outputs s
  case stopWave => exact stopWave_outputs hs hmode
  case startSequence v => exact startSequence_outputs v s
  case stopSequence => exact stopSequence_outputs (s := s) hmode
  case ledWrite ch val =>
    split at hmode <;> exact absurd rfl hmode
  all_goals exact absurd rfl hmode

end Sys2Proof.Machine
end

section
/-! The quarter-wave table (45_duty_rom.md R241). An entry of the table is the first position at which
one threshold of the duty function is reached, so that the table's count is the function's. -/

namespace Sys2Proof.Machine

/-- The first position of the period `p` at which the threshold `t` is reached. -/
def firstPosition (p : Nat) (t : Nat × Nat) : Nat := (t.1 * p) ⌈/⌉ t.2

theorem firstPosition_le_iff {t : Nat × Nat} (ht : 0 < t.2) (p pos : Nat) :
    firstPosition p t ≤ pos ↔ thresholdReached (2 * pos) (2 * p) t = true := by
  rw [firstPosition, ceilDiv_le_iff_le_mul ht, thresholdReached, decide_eq_true_eq,
    mul_left_comm t.1, mul_assoc, mul_le_mul_iff_right₀ two_pos,
    mul_comm t.2]

/-- In the first quarter wave the duty is 50 and one more for each threshold whose first position is
not behind. -/
theorem dutyFn_first_quarter {p pos : Nat} (hp : 1 ≤ p) (h : 4 * pos ≤ p) :
    dutyFn p pos = 50 + (dutyThresholds.map (firstPosition p)).countP (fun first => first ≤ pos) := by
  have hcount : dutySwing (2 * pos) (2 * p) =
      (dutyThresholds.map (firstPosition p)).countP (fun first => first ≤ pos) := by
    rw [dutySwing, List.countP_map]
    refine List.countP_congr fun t ht => ?_
    have hden : 0 < t.2 := (Nat.zero_le _).trans_lt (dutyThresholds_range t ht).2
    rw [← firstPosition_le_iff hden, Function.comp_apply, decide_eq_true_eq]
  rw [dutyFn_first_half (by omega), min_eq_left (by omega), hcount]

/-- Settles O47: the table's breakpoints are 0 and the thresholds' first positions; the other quadrants
are the mirror of the first half and the half-period sum. -/
theorem quarterWaveTable : Obligations.QuarterWaveTable := by
  unfold Obligations.QuarterWaveTable
  intro firsts
  have hfirsts : firsts = 0 :: dutyThresholds.map (firstPosition 1500) := by decide
  refine ⟨fun pos hpos => ?_, fun pos hpos _ => ?_, fun pos hpos hlt => ?_⟩
  · rw [dutyFn_first_quarter (by omega) (by omega), hfirsts, List.countP_cons,
      if_pos (decide_eq_true pos.zero_le)]
    omega
  · exact (dutyFn_mirror_first (h := 750) (by omega) hpos).symm
  · have hsum := dutyFn_add_half (pos - 750) (h := 750) (by omega)
    rw [Nat.mod_eq_of_lt (by omega), Nat.sub_add_cancel hlt.le, Nat.mod_eq_of_lt hpos] at hsum
    exact Nat.eq_sub_of_add_eq' hsum

end Sys2Proof.Machine
end

section
/-! Totality (60_exceptions.md R250): a pass and a reset are functions of the state, and a command's step
is that of the command it decodes to, which ends by answering. -/

namespace Sys2Proof.Machine

theorem exec_completes (i : Instr) (s : State) : ∃ t, exec i s = .next t := by
  obtain ⟨v, t, hanswer⟩ := exec_answers i s
  exact ⟨_, hanswer.trans (answer_next v t)⟩

theorem step_completes (s : State) : ∃ t, step s = .next t := by
  cases hinput : nextInput s with
  | tick level => exact ⟨_, step_tick hinput⟩
  | command w =>
    rw [step_command hinput]
    exact exec_completes (decode w) (takeInput s)
  | reset level => exact ⟨_, step_reset hinput⟩

/-- Settles O7: by the kind of input a step takes; every word decodes to a command, and every command
answers. -/
theorem everyStepCompletes : Obligations.EveryStepCompletes := ⟨step_completes, exec_completes⟩

end Sys2Proof.Machine
end

section
/-! The start-up lockout (70_reset_and_hazards.md R283, 41_button.md R129 item 2): the debouncer starts as
if a change had been committed at tick 0, and before `DEBOUNCE_WINDOW` every part of a pass, and every
command, keeps it so. -/

namespace Sys2Proof.Machine

/-- A count of strobes that stays below 2^32 is added to a time without a wrap. -/
theorem toNat_add_ofNat_of_lt {start : Word} {n : Nat} (h : start.toNat + n < 2 ^ 32) :
    (start + BitVec.ofNat 32 n).toNat = start.toNat + n := by
  rw [BitVec.toNat_add, BitVec.toNat_ofNat, Nat.add_mod_mod, Nat.mod_eq_of_lt h]

/-- The button registers of a debouncer that has committed no change since a reset that sampled the
given level (10_state.md R48). -/
structure State.NoCommitSinceReset (sample : Bool) (s : State) : Prop where
  level : s.btnPrev = sample
  state : s.btnState = .released
  change : s.btnLastChange = 0
  count : s.clicks = 0
  click : s.btnLastClick = 0

namespace State.NoCommitSinceReset

variable {sample : Bool} {s t : State}

theorem atReset (p : Params) (sample : Bool) (env : List Input) :
    ({ State.atReset p sample with env := env } : State).NoCommitSinceReset sample :=
  ⟨rfl, rfl, rfl, rfl, rfl⟩

protected theorem takeInput (hs : s.NoCommitSinceReset sample) :
    (takeInput s).NoCommitSinceReset sample := by
  rw [takeInput_frame]
  exact { hs with }

/-- A change lies inside the lockout that runs from tick 0 (41_button.md R121), and without a change
there is no hold from Released (R126). -/
protected theorem buttonUpdate (hs : s.NoCommitSinceReset sample) (level : Bool) {now : Word}
    (hnow : now < s.params.debounceWindow) :
    (buttonUpdate level now s).NoCommitSinceReset sample := by
  by_cases hlevel : level = s.btnPrev
  · have hnoHold : holdReached level now s = false := by simp [holdReached, hs.state]
    rw [buttonUpdate_of_same hlevel, hnoHold, hs.count, clicksUnlessStale_zero]
    exact { hs with count := rfl }
  · have hlocked : now - s.btnLastChange < s.params.debounceWindow := by
      rwa [hs.change, sub_zero]
    rw [buttonUpdate_of_ignored hlevel hlocked, hs.count, clicksUnlessStale_zero]
    exact { hs with count := rfl }

protected theorem pollButton (hs : s.NoCommitSinceReset sample) (level : Bool) {now : Word}
    (hnow : now < s.params.debounceWindow) :
    (pollButton level now s).NoCommitSinceReset sample := by
  cases hd : pollDue now s with
  | true =>
    rw [pollButton_of_due level hd]
    exact NoCommitSinceReset.buttonUpdate (s := { s with btnLastPoll := now }) { hs with } level hnow
  | false => rwa [pollButton_of_not_due level hd]

protected theorem tickPass (hs : s.NoCommitSinceReset sample) (level : Bool)
    (hnow : s.tick + 1 < s.params.debounceWindow) :
    (tickPass level s).NoCommitSinceReset sample := by
  have hpoll := NoCommitSinceReset.pollButton (s := advanceTick s) { hs with } level hnow
  rw [tickPass_eq, runEngine_frame]
  exact { hpoll with }

protected theorem exec {i : Instr} (hs : s.NoCommitSinceReset sample) (h : exec i s = .next t) :
    t.NoCommitSinceReset sample := by
  have hcount : t.clicks = 0 := (exec_clicks h).elim (·.trans hs.count) id
  rw [exec_frame h]
  exact { hs with count := hcount }

/-- A strobe or a command commits nothing as long as `TICK` is below `DEBOUNCE_WINDOW` after it. -/
protected theorem step (hs : s.NoCommitSinceReset sample) (hinput : isRunInput (nextInput s) = true)
    (h : step s = .next t) (htick : t.tick < s.params.debounceWindow) :
    t.NoCommitSinceReset sample := by
  rcases step_cases h with ⟨level, -, rfl⟩ | ⟨w, -, hexec⟩ | ⟨level, hreset, -⟩
  · rw [tickPass_tick, ← takeInput_params s] at htick
    exact hs.takeInput.tickPass level htick
  · exact hs.takeInput.exec hexec
  · rw [hreset] at hinput
    cases hinput

/-- A run of strobes and commands commits nothing as long as its strobes leave `TICK` below
`DEBOUNCE_WINDOW`. -/
protected theorem run {inputs rest : List Input} (hs : s.NoCommitSinceReset sample)
    (henv : s.env = inputs ++ rest) (hinputs : inputs.all isRunInput = true)
    (hticks : s.tick.toNat + inputs.countP isTickInput < s.params.debounceWindow.toNat)
    (h : core.run inputs.length s = .next t) : t.NoCommitSinceReset sample := by
  induction inputs generalizing s with
  | nil =>
    cases h
    exact hs
  | cons i inputs ih =>
    rw [List.all_cons, Bool.and_eq_true] at hinputs
    obtain ⟨hi, hinputs⟩ := hinputs
    obtain ⟨u, hstep, huenv, hutick⟩ := step_runInput henv hi
    rw [List.countP_cons] at hticks
    have hwindow := s.params.debounceWindow.isLt
    have hutick : u.tick.toNat = s.tick.toNat + if isTickInput i then 1 else 0 := by
      rw [hutick, toNat_add_ofNat_of_lt (by omega)]
    have hu : u.NoCommitSinceReset sample :=
      hs.step (nextInput_of_env_cons henv ▸ hi) hstep (BitVec.lt_def.mpr (by omega))
    rw [List.length_cons, run_succ_of_next _ hstep] at h
    refine ih hu huenv hinputs ?_ h
    rw [parametersNeverChange s u hstep]
    omega

end State.NoCommitSinceReset

/-- Settles O30: from `TICK` = 0 the run stays in the lockout, and too short for `TICK` to wrap. -/
theorem startUpLockout : Obligations.StartUpLockout := by
  intro p sample inputs rest hinputs hticks
  have hticks' : (0 : Word).toNat + inputs.countP isTickInput < p.debounceWindow.toNat :=
    (Nat.zero_add _).symm ▸ hticks
  have hnoWrap := toNat_add_ofNat_of_lt (hticks'.trans p.debounceWindow.isLt)
  obtain ⟨t, hrun, htenv, httick⟩ :=
    run_runInputs (s := { State.atReset p sample with env := inputs ++ rest }) rfl hinputs
  obtain ⟨level, state, change, count, click⟩ :=
    (State.NoCommitSinceReset.atReset p sample _).run rfl hinputs hticks' hrun
  refine ⟨t, hrun, htenv, ?_, level, state, change, count, click⟩
  exact (congrArg BitVec.toNat httick).trans (hnoWrap.trans (Nat.zero_add _))

end Sys2Proof.Machine
end
